-- ==== Sys2Proof/Word.lean ====
section
/-! DEFINITION. The word types of the machine: 8-bit samples and raw bytes (spec R5), 32-bit registers and command
words (spec R5, R90), 16-bit dimensions (spec R5). -/

namespace Sys2Proof

/-- A plane sample or a byte of a raw frame: 8 bits, unsigned (spec R5). -/
abbrev Byte := BitVec 8

/-- A host register or a command word: 32 bits (spec R5, R30, R90). -/
abbrev Word := BitVec 32

/-- A luma width or height: 16 bits (spec R5, R34, R35). -/
abbrev Dim := BitVec 16

end Sys2Proof
end

