-- ==== Sys2Proof/Syntax.lean ====
section
/-! DEFINITION. The six commands (spec R91) and the pixel formats (spec R110) as syntax. One constructor of `Instr`
per row of spec/opcode_table.json. -/

namespace Sys2Proof

/-- The six pixel formats, in the order of their tags (spec R92, R110). -/
inductive PixelFormat where
  | yv12 | iyuv | uyvy | yvyu | yuy2 | y422
  deriving DecidableEq, Repr

/-- The two subsampling families (spec R111). -/
inductive Family where
  | f420 | f422
  deriving DecidableEq, Repr

/-- A 4-bit format field of a command (spec R92): a listed format, or a number that names none
(`#n` in the spec's syntax, R96), which decodes and makes the command fault (R98, R192). -/
inductive Tag where
  | fmt (f : PixelFormat)
  | unlisted (n : Nat)
  deriving DecidableEq, Repr

/-- The commands (spec R91): the only instructions the engine has. -/
inductive Instr where
  /-- LAYOUT fa (spec R117). -/
  | layout (fa : Tag)
  /-- DEC fa (spec R132). -/
  | dec (fa : Tag)
  /-- ENC fa (spec R133). -/
  | enc (fa : Tag)
  /-- DN422 (spec R161). -/
  | dn422
  /-- UP420 (spec R162). -/
  | up420
  /-- CONV fa, fb (spec R181): source tag first, destination tag second. -/
  | conv (fa fb : Tag)
  deriving DecidableEq, Repr

end Sys2Proof
end

