-- ==== Sys2Proof/WellFormed.lean ====
section
/-! DEFINITION. Which instructions a command word can carry: a tag without a format is a number from 6 to 15
(spec R92: 0 to 5 name formats, and the field has 4 bits). -/

namespace Sys2Proof

/-- A tag field holds a listed format or one of the numbers 6 to 15 (spec R92). -/
def Tag.wellFormed : Tag → Bool
  | .fmt _ => true
  | .unlisted n => decide (6 ≤ n) && decide (n ≤ 15)

/-- Every tag of the instruction fits its field (spec R90, R92). -/
def Instr.wellFormed : Instr → Bool
  | .layout fa => fa.wellFormed
  | .dec fa => fa.wellFormed
  | .enc fa => fa.wellFormed
  | .dn422 => true
  | .up420 => true
  | .conv fa fb => fa.wellFormed && fb.wellFormed

end Sys2Proof
end

