-- ==== Sys2Proof/Decode.lean ====
section
/-! DEFINITION. The decoder, total on 32-bit words (spec R98), its named refusals (spec R94), and after it the
encoder (spec R96). -/

namespace Sys2Proof

/-- Why a word is illegal: the three kinds of illegal words of spec R94. The engine step makes each of them the
fault IllegalCommand (spec R191). -/
inductive Illegal where
  /-- A bit of 31:12 is set. -/
  | highBitsSet
  /-- The opcode is 0x0 or 0x7 to 0xF. -/
  | unassignedOpcode
  /-- A format field that the opcode does not use is not 0. -/
  | unusedFieldSet
  deriving DecidableEq, Repr

/-- What a word decodes to. -/
inductive Decoded where
  | command (i : Instr)
  | illegal (r : Illegal)
  deriving DecidableEq, Repr

/-- The field `op`, bits 3:0 (spec R90). -/
def opField (w : Word) : BitVec 4 := w.extractLsb' 0 4

/-- The field `fa`, bits 7:4 (spec R90). -/
def faField (w : Word) : BitVec 4 := w.extractLsb' 4 4

/-- The field `fb`, bits 11:8 (spec R90). -/
def fbField (w : Word) : BitVec 4 := w.extractLsb' 8 4

/-- The field `z`, bits 31:12 (spec R90). -/
def zField (w : Word) : BitVec 20 := w.extractLsb' 12 20

/-- The tag a 4-bit format field holds (spec R92). -/
def Tag.ofCode (c : BitVec 4) : Tag :=
  if c = 0#4 then .fmt .yv12
  else if c = 1#4 then .fmt .iyuv
  else if c = 2#4 then .fmt .uyvy
  else if c = 3#4 then .fmt .yvyu
  else if c = 4#4 then .fmt .yuy2
  else if c = 5#4 then .fmt .y422
  else .unlisted c.toNat

/-- The decode function of spec R98. -/
def decode (w : Word) : Decoded :=
  if zField w ≠ 0#20 then .illegal .highBitsSet
  else if opField w = 1#4 then
    if fbField w = 0#4 then .command (.layout (Tag.ofCode (faField w))) else .illegal .unusedFieldSet
  else if opField w = 2#4 then
    if fbField w = 0#4 then .command (.dec (Tag.ofCode (faField w))) else .illegal .unusedFieldSet
  else if opField w = 3#4 then
    if fbField w = 0#4 then .command (.enc (Tag.ofCode (faField w))) else .illegal .unusedFieldSet
  else if opField w = 4#4 then
    if faField w = 0#4 ∧ fbField w = 0#4 then .command .dn422 else .illegal .unusedFieldSet
  else if opField w = 5#4 then
    if faField w = 0#4 ∧ fbField w = 0#4 then .command .up420 else .illegal .unusedFieldSet
  else if opField w = 6#4 then .command (.conv (Tag.ofCode (faField w)) (Tag.ofCode (fbField w)))
  else .illegal .unassignedOpcode

/-- The command of a decoded word, where there is one. -/
def Decoded.command? : Decoded → Option Instr
  | .command i => some i
  | .illegal _ => none

/-- The 4-bit code of a listed format (spec R92). -/
def PixelFormat.code : PixelFormat → BitVec 4
  | .yv12 => 0#4
  | .iyuv => 1#4
  | .uyvy => 2#4
  | .yvyu => 3#4
  | .yuy2 => 4#4
  | .y422 => 5#4

/-- The 4-bit field of a tag (spec R92). -/
def Tag.code : Tag → BitVec 4
  | .fmt f => f.code
  | .unlisted n => BitVec.ofNat 4 n

/-- The word `op | fa << 4 | fb << 8` (spec R96). -/
def commandWord (op fa fb : BitVec 4) : Word :=
  op.setWidth 32 ||| fa.setWidth 32 <<< 4 ||| fb.setWidth 32 <<< 8

/-- The encoder: the word of a command (spec R91, R96). -/
def encode : Instr → Word
  | .layout fa => commandWord 1#4 fa.code 0#4
  | .dec fa => commandWord 2#4 fa.code 0#4
  | .enc fa => commandWord 3#4 fa.code 0#4
  | .dn422 => commandWord 4#4 0#4 0#4
  | .up420 => commandWord 5#4 0#4 0#4
  | .conv fa fb => commandWord 6#4 fa.code fb.code

/-- The command word whose lowest `nbits` bits are those of `w`, every bit above them 0. A command is one 32-bit word
(spec R90), so there is no byte order to settle (spec R61). -/
def tableWord (nbits w : Nat) : Word := BitVec.ofNat 32 (w % 2 ^ nbits)

/-- The command this decoder reads from a word numbered as spec/opcode_table.json numbers it. -/
def decodeTableWord (nbits w : Nat) : Option Instr := (decode (tableWord nbits w)).command?

end Sys2Proof
end

