-- ==== Sys2Proof/Config.lean ====
section
/-! DEFINITION. What an implementation fixes (spec R6, U15) and the free values (spec R46). -/

namespace Sys2Proof.Config

/-- THE FREE VALUE of the model: the byte that one read of something unspecified finds (spec R46: "each read of it, by
the host or by the engine, returns any 8-bit value, and two reads need not agree"). It has no body, so no proof can see
a value of it, nor that two of them agree. A read is told from every other one by the engine that makes it
(`State.inst`), by the number `n` of the reading (drawn from `State.draws`), and within a reading of a plane by the
output sample it is for and by the tap of the filter. Log entry 4. -/
opaque freeByte (inst n out tap : Nat) : Byte

/-- `CAP` is legal when it is a multiple of 4 and `4 <= CAP <= 2^32 - 4` (spec R6). -/
def capLegal (cap : Nat) : Bool := cap % 4 == 0 && decide (4 ≤ cap) && decide (cap ≤ 4294967292)

/-- The capacity that `State.reset` carries, the one the spec's own vectors use (spec 95_test_vectors.md).
DESIGN CHOICE, unsafe: the spec leaves `CAP` open (R6, U15); no statement rests on this number. Log entry 1. -/
def capAtReset : Nat := 4096

/-- Where the platform places the REG space (spec R6, R64). No rule of the spec, and nothing in the model, depends
on it. Log entry 8. -/
opaque regBase : Nat

/-- Where the platform places the IN space (spec R6, R64). No rule depends on it. Log entry 8. -/
opaque inBase : Nat

/-- Where the platform places the OUT space (spec R6, R64). No rule depends on it. Log entry 8. -/
opaque outBase : Nat

end Sys2Proof.Config
end

