-- ==== Sys2Proof/Machine/State.lean ====
section
/-! DEFINITION. The state of one engine (spec 10_state.md) as plain data, the outside world's turns and the host's
replies beside it, the reset state (spec R45), and the reasons a step can stop. -/

namespace Sys2Proof.Machine

open Sys2Proof

/-- `PHASE`: the engine waits, or has a command latched (spec R24). -/
inductive Phase where
  | idle | busy
  deriving DecidableEq, Repr

/-- The five fault kinds the engine latches in `STATUS.ERR` (spec R190). They are states of the running machine, not
stops of the model. -/
inductive FaultKind where
  | illegalCommand | unsupportedFormat | dimError | sizeMismatch | frameError
  deriving DecidableEq, Repr

/-- A plane sample: a byte, or unspecified (spec R22, R46, R132). -/
abbrev Sample := Option Byte

/-- A plane buffer: the samples of its valid range in raster order (spec R22, R23, U4). -/
abbrev Plane := List Sample

/-- A byte-addressed buffer, IN or OUT: the specified bytes, addresses strictly rising. An address that is not
listed is unspecified (spec R45, R46). -/
abbrev Memory := List Host.Cell

/-- The Frame: three planes and their tag (spec R21). -/
structure Frame where
  /-- `FV`: the Frame holds a decoded frame. -/
  fv : Bool
  /-- `FFAM`: the chroma grid of the two chroma planes. -/
  ffam : Family
  /-- `FW`: luma width. -/
  fw : Dim
  /-- `FH`: luma height. -/
  fh : Dim
  /-- `PY`, luma. -/
  py : Plane
  /-- `PCB`, chroma Cb. -/
  pcb : Plane
  /-- `PCR`, chroma Cr. -/
  pcr : Plane
  deriving DecidableEq, Repr

/-- The three result registers of one plane, `LY_p_START`, `LY_p_STEP`, `LY_p_COUNT` (spec R41). -/
structure LyAccessor where
  start : Word
  step : Word
  count : Word
  deriving DecidableEq, Repr

/-- The eleven layout result registers (spec R41). -/
structure LayoutRegs where
  /-- `LY_FSIZE`. -/
  fsize : Word
  /-- `LY_KIND` bit 0: 1 for a packed format. -/
  packed : Bool
  /-- `LY_Y_*`. -/
  y : LyAccessor
  /-- `LY_CB_*`. -/
  cb : LyAccessor
  /-- `LY_CR_*`. -/
  cr : LyAccessor
  deriving DecidableEq, Repr

/-- The three address spaces (spec R28). -/
inductive Space where
  | reg | inBuf | outBuf
  deriving DecidableEq, Repr

/-- One access of the host: `MemRead(space, addr, n)` or `MemWrite(space, addr, n, v)` (spec R10, R65 to R68). -/
inductive HostAccess where
  | read (space : Space) (addr n : Nat)
  | write (space : Space) (addr n : Nat) (v : Word)
  deriving DecidableEq, Repr

/-- Who moves next (spec R19): the engine, the host with one access, or the external reset input (spec R220). -/
inductive Turn where
  | engine
  | host (a : HostAccess)
  | hardReset
  deriving DecidableEq, Repr

/-- What a read of the host returned. -/
inductive Reply where
  | reg (off : Nat) (v : Word)
  | inByte (k : Nat) (b : Byte)
  | outByte (k : Nat) (b : Byte)
  deriving DecidableEq, Repr

/-- The state of one engine. -/
structure State where
  /-- `CAP`, the capacity of IN and of OUT (spec R6): a parameter that no step changes. Log entry 1. -/
  cap : Nat
  /-- The model's own: which engine of a chip this is (spec R211). No step changes it, nothing but the choice of free
  bytes depends on it, and 60_exceptions.md gives a command no way to see it. Log entry 8. -/
  inst : Nat
  /-- `PHASE` (spec R24). -/
  phase : Phase
  /-- `CMDL`, the latched command word (spec R24). -/
  cmdl : Word
  /-- `STATUS.DONE` (spec R32). -/
  done : Bool
  /-- `STATUS.W16` (spec R32, R116). -/
  w16 : Bool
  /-- `STATUS.HAZ` (spec R32, R69). -/
  haz : Bool
  /-- `STATUS.ERR` (spec R32, R190): `none` is code 0, no fault latched. -/
  err : Option FaultKind
  /-- `CTRL.IE_DONE` (spec R33). -/
  ieDone : Bool
  /-- `CTRL.IE_ERR` (spec R33). -/
  ieErr : Bool
  /-- `WIDTH[15:0]` (spec R34). -/
  width : Dim
  /-- `HEIGHT[15:0]` (spec R35). -/
  height : Dim
  /-- `IN_LEN` (spec R36). -/
  inLen : Word
  /-- `OUT_LEN` (spec R37). -/
  outLen : Word
  /-- `ERRINFO` (spec R38). -/
  errinfo : Word
  /-- The Frame (spec R21). -/
  frame : Frame
  /-- The layout result registers (spec R41). -/
  ly : LayoutRegs
  /-- The IN buffer (spec R29). -/
  inMem : Memory
  /-- The OUT buffer (spec R29). -/
  outMem : Memory
  /-- The model's own: how many free readings have been taken. Log entry 4. -/
  draws : Nat
  /-- The model's own: the turns still to come; when the list is empty the turn is the engine's. Log entry 2. -/
  turns : List Turn
  /-- The model's own: what the host's reads returned, newest first. Log entry 3. -/
  replies : List Reply
  deriving DecidableEq, Repr

/-- Why the machine stops with a fault: never. Every fault of the spec is latched in `STATUS.ERR` and the machine
goes on (spec R200), so no step raises one and there is no constructor; a step that stops is a refusal. Safe. -/
inductive Fault where
  deriving DecidableEq, Repr

/-- Why the model gives a step no meaning. -/
inductive Refusal where
  /-- Raised by an arm of `exec` whose instruction has no meaning yet: none is left. Safe. -/
  | notModelled (mnemonic : String)
  /-- Raised by a host access to REG that is not 4 bytes wide at a multiple of 4: "not a step of the host in this
  model" (spec R62, U6). Safe. -/
  | regAccessMisshapen
  /-- Raised by a host access to IN or OUT that is not one byte wide (spec R62, U6). Safe. -/
  | bufferAccessNotByte
  /-- Raised by a host access to IN or OUT at an offset of `CAP` or more (spec R62, U7). Safe. -/
  | bufferOffsetBeyondCap
  deriving DecidableEq, Repr

/-- No Frame: every tag field 0, no valid sample (spec R45). -/
def Frame.none : Frame := ⟨false, .f420, 0#16, 0#16, [], [], []⟩

/-- Three result registers of value 0 (spec R45). -/
def LyAccessor.zero : LyAccessor := ⟨0#32, 0#32, 0#32⟩

/-- The layout result registers after reset (spec R45). -/
def LayoutRegs.zero : LayoutRegs := ⟨0#32, false, LyAccessor.zero, LyAccessor.zero, LyAccessor.zero⟩

/-- The reset state of an engine of capacity `cap` (spec R45), the first of its chip. `cmdl` is unspecified in the spec and unobservable
while idle (U9): 0, DESIGN CHOICE, unsafe, log entry 5. The model's own fields are empty: DESIGN CHOICE, log entries
2, 3 and 4. -/
def State.resetWith (cap : Nat) : State where
  cap := cap
  inst := 0
  phase := .idle
  cmdl := 0#32
  done := false
  w16 := false
  haz := false
  err := .none
  ieDone := false
  ieErr := false
  width := 0#16
  height := 0#16
  inLen := 0#32
  outLen := 0#32
  errinfo := 0#32
  frame := Frame.none
  ly := LayoutRegs.zero
  inMem := []
  outMem := []
  draws := 0
  turns := []
  replies := []

/-- The machine right after reset (spec R45). -/
def State.reset : State := State.resetWith Config.capAtReset

end Sys2Proof.Machine
end

