-- ==== Sys2Proof/Machine/Ops.lean ====
section
/-! DEFINITION. The named operations over buffers and state that everything else is written with: one byte of a
buffer, one reading of a plane, issuing a command, completing it, taking a fault, and the reset that returns from
one. -/

namespace Sys2Proof.Machine

open Sys2Proof

/-- The byte at address `k` of a buffer, `none` where it is unspecified (spec R46). -/
def Memory.read : Memory → Nat → Option Byte
  | [], _ => none
  | (a, x) :: rest, k => if a = k then some x else Memory.read rest k

/-- The buffer with byte `b` at address `k`, every other address as before. -/
def Memory.write : Memory → Nat → Byte → Memory
  | [], k, b => [(k, b)]
  | (a, x) :: rest, k, b =>
    if k < a then (k, b) :: (a, x) :: rest
    else if k = a then (k, b) :: rest
    else (a, x) :: Memory.write rest k b

/-- The buffer with address `k` unspecified, every other address as before. -/
def Memory.erase : Memory → Nat → Memory
  | [], _ => []
  | (a, x) :: rest, k => if a = k then Memory.erase rest k else (a, x) :: Memory.erase rest k

/-- The buffer with a sample at address `k`: its byte, or nothing specified where the sample is unspecified. -/
def Memory.put (m : Memory) (k : Nat) (v : Sample) : Memory :=
  match v with
  | some b => m.write k b
  | none => m.erase k

/-- The canonical form of a buffer: addresses strictly rising. (An unlisted address has no value of its own, so no
entry can repeat one.) -/
def Memory.wf : Memory → Bool
  | [] => true
  | [_] => true
  | (a, _) :: (b, y) :: rest => decide (a < b) && Memory.wf ((b, y) :: rest)

/-- Sample `k` of a plane; past the end there is none that is specified (spec R22). -/
def Plane.sample (p : Plane) (k : Nat) : Sample := p[k]?.join

/-- What tap number `tap` of output sample `out` reads at index `k` of a plane in reading number `n` of engine `inst`:
the sample, and where that is unspecified a free byte of its own (spec R46). -/
def Plane.tapRead (p : Plane) (inst n out tap k : Nat) : Byte := (p.sample k).getD (Config.freeByte inst n out tap)

/-- A new command is latched (spec R31): `CMDL <- v`, `PHASE <- BUSY`, `STATUS.DONE <- 0`. -/
def State.issue (s : State) (v : Word) : State := { s with cmdl := v, phase := .busy, done := false }

/-- A host write is discarded (spec R69): `STATUS.HAZ <- 1`. -/
def State.discardWrite (s : State) : State := { s with haz := true }

/-- Completion (spec R207): `STATUS.DONE <- 1`, `PHASE <- IDLE`. -/
def State.complete (s : State) : State := { s with done := true, phase := .idle }

/-- TAKING A FAULT (spec R200): `STATUS.ERR <- code`, `ERRINFO <- CMDL`, `PHASE <- IDLE`, nothing else. -/
def State.raise (s : State) (k : FaultKind) : State :=
  { s with err := some k, errinfo := s.cmdl, phase := .idle }

/-- THE RETURN FROM A FAULT, and every reset (spec R202, R220, R221): the state of spec R45. The capacity is a
parameter and stays, as does the engine's number on its chip; the counter of free readings goes on, so that no reading
after the reset repeats one before it (spec U1); the outside world's turns and the host's replies are not the engine's to reset. -/
def State.resetEngine (s : State) : State :=
  { State.resetWith s.cap with inst := s.inst, draws := s.draws, turns := s.turns, replies := s.replies }

/-- The code `STATUS.ERR` holds for a fault (spec R190). -/
def FaultKind.code : FaultKind → BitVec 4
  | .illegalCommand => 1#4
  | .unsupportedFormat => 2#4
  | .dimError => 3#4
  | .sizeMismatch => 4#4
  | .frameError => 5#4

/-- The command `w` is issued and the next turn is the engine's, so that the very next step runs it. Log entry 7. -/
def State.presentCommand (s : State) (w : Word) : State :=
  { s.issue w with turns := .engine :: s.turns }

end Sys2Proof.Machine
end

