-- ==== Sys2Proof/Machine/Operands.lean ====
section
/-! DEFINITION. The operand forms of the commands: formats and their families, frame size, the three accessors of a
layout and what they gather and scatter, the dimension check, the frame check (spec 40_format_descriptor.md,
41_frame_codec.md). -/

namespace Sys2Proof.Machine

open Sys2Proof

/-- The format a tag names, if any (spec R92). -/
def formatOf : Tag → Option PixelFormat
  | .fmt f => some f
  | .unlisted _ => none

/-- `fam(f)` (spec R111). -/
def fam : PixelFormat → Family
  | .yv12 => .f420
  | .iyuv => .f420
  | .uyvy => .f422
  | .yvyu => .f422
  | .yuy2 => .f422
  | .y422 => .f422

/-- Whether a format is packed, `LY_KIND` bit 0 (spec R41, R110). -/
def isPacked : PixelFormat → Bool
  | .yv12 => false
  | .iyuv => false
  | .uyvy => true
  | .yvyu => true
  | .yuy2 => true
  | .y422 => false

/-- `fsize(f, w, h)` (spec R112). -/
def fsize (f : PixelFormat) (w h : Nat) : Nat :=
  match fam f with
  | .f420 => w * h * 3 / 2
  | .f422 => w * h * 2

/-- An accessor `(start, step, count)`: the byte offsets `start + k*step` for `0 <= k < count` (spec R12). -/
structure Accessor where
  start : Nat
  step : Nat
  count : Nat
  deriving DecidableEq, Repr

/-- The byte offset of sample `k` (spec R130). -/
def Accessor.offset (a : Accessor) (k : Nat) : Nat := a.start + k * a.step

/-- The three accessors of a raw frame, for Y, Cb and Cr in that logical order (spec R113). -/
structure Layout where
  y : Accessor
  cb : Accessor
  cr : Accessor
  deriving DecidableEq, Repr

/-- `layout(f, w, h)`, the table of spec R113. -/
def layout (f : PixelFormat) (w h : Nat) : Layout :=
  let wh := w * h
  match f with
  | .yv12 => ⟨⟨0, 1, wh⟩, ⟨wh, 1, wh / 4⟩, ⟨wh + wh / 4, 1, wh / 4⟩⟩
  | .iyuv => ⟨⟨0, 1, wh⟩, ⟨wh + wh / 4, 1, wh / 4⟩, ⟨wh, 1, wh / 4⟩⟩
  | .uyvy => ⟨⟨1, 2, wh⟩, ⟨0, 4, wh / 2⟩, ⟨2, 4, wh / 2⟩⟩
  | .yvyu => ⟨⟨0, 2, wh⟩, ⟨3, 4, wh / 2⟩, ⟨1, 4, wh / 2⟩⟩
  | .yuy2 => ⟨⟨0, 2, wh⟩, ⟨1, 4, wh / 2⟩, ⟨3, 4, wh / 2⟩⟩
  | .y422 => ⟨⟨0, 1, wh⟩, ⟨wh, 1, wh / 2⟩, ⟨wh + wh / 2, 1, wh / 2⟩⟩

/-- `dims_ok(F, w, h)` for capacity `cap` (spec R115). -/
def dimsOk (cap : Nat) (F : Family) (w h : Nat) : Bool :=
  decide (2 ≤ w) && w % 2 == 0 && decide (1 ≤ h) && (F == .f422 || h % 2 == 0) && decide (2 * w * h ≤ cap)

/-- The luma width a command works with, `R.WIDTH[15:0]` (spec R93). -/
def State.w (s : State) : Nat := s.width.toNat

/-- The luma height a command works with, `R.HEIGHT[15:0]` (spec R93). -/
def State.h (s : State) : Nat := s.height.toNat

/-- The dimension check of a command in state `s` for a family (spec R115, R193). -/
def State.dimsOk (s : State) (F : Family) : Bool := Machine.dimsOk s.cap F s.w s.h

/-- The size check of DEC and CONV (spec R194). -/
def State.sizeOk (s : State) (f : PixelFormat) : Bool := s.inLen.toNat == fsize f s.w s.h

/-- The Frame is there, has the current dimensions and is on the grid of family `F` (spec R195). -/
def State.frameOk (s : State) (F : Family) : Bool :=
  s.frame.fv && s.frame.fw == s.width && s.frame.fh == s.height && s.frame.ffam == F

/-- The samples that an accessor names in a raw frame, in order (spec R130). A byte that is unspecified gives an
unspecified sample (spec R132). -/
def gather (raw : Memory) (a : Accessor) : Plane := (List.range a.count).map fun k => raw.read (a.offset k)

/-- The raw frame with the first `count` samples of a plane written at the accessor's offsets (spec R131). A sample
that is unspecified leaves its byte unspecified, as `gather` does the other way round (spec R132, R46). Log entry 4. -/
def scatterUpTo (raw : Memory) (a : Accessor) (p : Plane) : Nat → Memory
  | 0 => raw
  | c + 1 => (scatterUpTo raw a p c).put (a.offset c) (p.sample c)

/-- The raw frame with a whole plane written at the accessor's offsets (spec R131). -/
def scatter (raw : Memory) (a : Accessor) (p : Plane) : Memory := scatterUpTo raw a p a.count

/-- `encode(y, cb, cr, f, w, h)` (spec R131): a buffer in which nothing is specified but what the three planes write. -/
def encodePlanes (y cb cr : Plane) (f : PixelFormat) (w h : Nat) : Memory :=
  let l := layout f w h
  scatter (scatter (scatter [] l.y y) l.cb cb) l.cr cr

end Sys2Proof.Machine
end

