-- ==== Sys2Proof/Machine/Flags.lean ====
section
/-! DEFINITION. The flags: the multiple-of-16 warning (spec R116), the STATUS, CTRL, FRAME and FRAME_DIM words as the
host reads them (spec R32, R33, R39, R40), the W1C write (spec R32), the interrupt line (spec R43), and the ONE order
of a command's checks (spec R198). -/

namespace Sys2Proof.Machine

open Sys2Proof

/-- A width or height that is not a multiple of 16 (spec R116). -/
def State.notMultipleOf16 (s : State) : Bool := s.w % 16 != 0 || s.h % 16 != 0

/-- Step 4 of spec R198: `STATUS.W16 <- 1` when a dimension is not a multiple of 16; else it stays (spec R116). -/
def State.noteW16 (s : State) : State := { s with w16 := s.w16 || s.notMultipleOf16 }

/-- Steps 3 to 7 of spec R198 for a command whose tags name formats: the dimension check, the warning, the size check,
the frame check, the effects, completion. The first check that fails decides the fault. -/
def State.runChecked (s : State) (dims size frame : Bool) (effect : State → State) :
    Host.Outcome State Fault Refusal :=
  if dims = false then .next (s.raise .dimError)
  else if size = false then .next (s.noteW16.raise .sizeMismatch)
  else if frame = false then .next (s.noteW16.raise .frameError)
  else .next (effect s.noteW16).complete

/-- A register word whose only bit that can be set is bit `n` (spec R9). -/
def flagAt (b : Bool) (n : Nat) : Word := (BitVec.ofBool b).setWidth 32 <<< n

/-- `STATUS.BUSY`: 1 exactly when `PHASE = BUSY` (spec R24). -/
def State.busy (s : State) : Bool := s.phase == .busy

/-- The field `STATUS.ERR` (spec R32, R190). -/
def State.errCode (s : State) : BitVec 4 :=
  match s.err with
  | none => 0#4
  | some k => k.code

/-- The STATUS word (spec R32). -/
def State.statusWord (s : State) : Word :=
  flagAt s.busy 0 ||| flagAt s.done 1 ||| flagAt s.w16 2 ||| flagAt s.haz 3 ||| s.errCode.setWidth 32 <<< 8

/-- A host write to STATUS: a 1 in bit 1, 2 or 3 clears DONE, W16 or HAZ (spec R32, R65). -/
def State.writeStatus (s : State) (v : Word) : State :=
  { s with
    done := s.done && !v.getLsbD 1
    w16 := s.w16 && !v.getLsbD 2
    haz := s.haz && !v.getLsbD 3 }

/-- The CTRL word (spec R33): SRST and the reserved bits read 0. -/
def State.ctrlWord (s : State) : Word := flagAt s.ieDone 0 ||| flagAt s.ieErr 1

/-- A host write to CTRL: with bit 31 set a soft reset and nothing else, else the two enables (spec R33, R65). -/
def State.writeCtrl (s : State) (v : Word) : State :=
  if v.getLsbD 31 then s.resetEngine else { s with ieDone := v.getLsbD 0, ieErr := v.getLsbD 1 }

/-- The bit of a family in FFAM: 4:2:0 is 0, 4:2:2 is 1 (spec R21, R111). -/
def familyBit : Family → Bool
  | .f420 => false
  | .f422 => true

/-- The FRAME word: bit 0 FV, bit 1 FFAM, which reads 0 when FV is 0 (spec R39). -/
def State.frameWord (s : State) : Word :=
  flagAt s.frame.fv 0 ||| flagAt (s.frame.fv && familyBit s.frame.ffam) 1

/-- The FRAME_DIM word: FH above FW; 0 when FV is 0 (spec R40). -/
def State.frameDimWord (s : State) : Word :=
  if s.frame.fv then s.frame.fw.setWidth 32 ||| s.frame.fh.setWidth 32 <<< 16 else 0#32

/-- The interrupt line (spec R43). -/
def State.irq (s : State) : Bool := (s.ieDone && s.done) || (s.ieErr && s.err.isSome)

end Sys2Proof.Machine
end

