-- ==== Sys2Proof/Machine/Codec.lean ====
section
/-! DEFINITION. The frame codec: DEC gathers a raw frame into the Frame, ENC scatters the Frame into a raw frame
(spec 41_frame_codec.md). -/

namespace Sys2Proof.Machine

open Sys2Proof

/-- The Frame that a raw frame in format `f` decodes to (spec R130, R132). -/
def decodeFrame (raw : Memory) (f : PixelFormat) (w h : Dim) : Frame :=
  let l := layout f w.toNat h.toNat
  ⟨true, fam f, w, h, gather raw l.y, gather raw l.cb, gather raw l.cr⟩

/-- The effect of DEC (spec R132): the whole Frame is replaced. -/
def State.loadFrame (s : State) (f : PixelFormat) : State :=
  { s with frame := decodeFrame s.inMem f s.width s.height }

/-- The effect of ENC (spec R133): OUT holds the encoded frame and nothing else is specified in it; OUT_LEN is its
length. -/
def State.storeFrame (s : State) (f : PixelFormat) : State :=
  { s with
    outMem := encodePlanes s.frame.py s.frame.pcb s.frame.pcr f s.w s.h
    outLen := BitVec.ofNat 32 (fsize f s.w s.h) }

/-- DEC fa (spec R132). -/
def execDec (fa : Tag) (s : State) : Host.Outcome State Fault Refusal :=
  match formatOf fa with
  | none => .next (s.raise .unsupportedFormat)
  | some f => s.runChecked (s.dimsOk (fam f)) (s.sizeOk f) true fun t => t.loadFrame f

/-- ENC fa (spec R133). -/
def execEnc (fa : Tag) (s : State) : Host.Outcome State Fault Refusal :=
  match formatOf fa with
  | none => .next (s.raise .unsupportedFormat)
  | some f => s.runChecked (s.dimsOk (fam f)) true (s.frameOk (fam f)) fun t => t.storeFrame f

end Sys2Proof.Machine
end

