-- ==== Sys2Proof/Machine/Descriptor.lean ====
section
/-! DEFINITION. The format descriptor's command, LAYOUT (spec R117). -/

namespace Sys2Proof.Machine

open Sys2Proof

/-- An accessor as three 32-bit result registers (spec R41). -/
def Accessor.regs (a : Accessor) : LyAccessor :=
  ⟨BitVec.ofNat 32 a.start, BitVec.ofNat 32 a.step, BitVec.ofNat 32 a.count⟩

/-- The layout result registers of a descriptor (spec R41, R117). -/
def layoutRegs (f : PixelFormat) (w h : Nat) : LayoutRegs :=
  let l := layout f w h
  ⟨BitVec.ofNat 32 (fsize f w h), isPacked f, l.y.regs, l.cb.regs, l.cr.regs⟩

/-- The effect of LAYOUT (spec R117). -/
def State.storeLayout (s : State) (f : PixelFormat) : State := { s with ly := layoutRegs f s.w s.h }

/-- LAYOUT fa (spec R117). -/
def execLayout (fa : Tag) (s : State) : Host.Outcome State Fault Refusal :=
  match formatOf fa with
  | none => .next (s.raise .unsupportedFormat)
  | some f => s.runChecked (s.dimsOk (fam f)) true true fun t => t.storeLayout f

end Sys2Proof.Machine
end

