-- ==== Sys2Proof/Machine/Resampler.lean ====
section
/-! DEFINITION. The chroma resampler: DN422 and UP420 (spec 42_chroma_resampler.md). A filter reads its source plane
through `src`, the byte that each tap finds at each index of the plane, and computes with exact integers (spec R151). -/

namespace Sys2Proof.Machine

open Sys2Proof

/-- The arithmetic right shift: `floor(a / 2^n)` (spec R7). -/
def asr (a : Int) (n : Nat) : Int := a / 2 ^ n

/-- `clip255(v) = max(0, min(255, v))` as a sample (spec R8). -/
def clip255 (v : Int) : Byte := BitVec.ofNat 8 (max 0 (min 255 v)).toNat

/-- The row `n` above `j`, clamped: `max(j-n, 0)` (spec R152, R155). Subtraction of naturals stops at 0. -/
def rowAbove (j n : Nat) : Nat := j - n

/-- The row `n` below `j` in a plane of `rows` rows, clamped: `min(j+n, rows-1)` (spec R152, R155). -/
def rowBelow (j n rows : Nat) : Nat := min (j + n) (rows - 1)

/-- What tap number `tap` of a sum reads at `src[i, r]`, as an integer 0 to 255: the sample at index `r*cw + i` of a
plane of `cw` columns (spec R23, R151). The taps are numbered in the order the spec writes them; on specified samples
they all read alike. -/
def pixel (src : Nat → Nat → Byte) (cw i tap r : Nat) : Int := ((src tap (r * cw + i)).toNat : Int)

/-- The downsampler's sum, bias included (spec R152, R153); `jp6 = jp5`, the preserved deviation. -/
def downAcc (src : Nat → Nat → Byte) (cw rows i j : Nat) : Int :=
  let jp5 := rowBelow j 5 rows
  let jp6 := jp5
  228 * (pixel src cw i 0 j + pixel src cw i 1 (rowBelow j 1 rows))
    + 70 * (pixel src cw i 2 (rowAbove j 1) + pixel src cw i 3 (rowBelow j 2 rows))
    - 37 * (pixel src cw i 4 (rowAbove j 2) + pixel src cw i 5 (rowBelow j 3 rows))
    - 21 * (pixel src cw i 6 (rowAbove j 3) + pixel src cw i 7 (rowBelow j 4 rows))
    + 11 * (pixel src cw i 8 (rowAbove j 4) + pixel src cw i 9 jp5)
    + 5 * (pixel src cw i 10 (rowAbove j 5) + pixel src cw i 11 jp6)
    + 256

/-- One output sample of the downsampler: bias, shift, clamp in that order (spec R154, R158). -/
def downSample (src : Nat → Nat → Byte) (cw rows i j : Nat) : Byte := clip255 (asr (downAcc src cw rows i j) 9)

/-- The upsampler's sum of the even phase (spec R155, R156). -/
def upAccEven (src : Nat → Nat → Byte) (cw rows i j : Nat) : Int :=
  3 * pixel src cw i 0 (rowAbove j 3) - 16 * pixel src cw i 1 (rowAbove j 2) + 67 * pixel src cw i 2 (rowAbove j 1)
    + 227 * pixel src cw i 3 j - 32 * pixel src cw i 4 (rowBelow j 1 rows)
    + 7 * pixel src cw i 5 (rowBelow j 2 rows) + 128

/-- The upsampler's sum of the odd phase, mirrored taps (spec R157). -/
def upAccOdd (src : Nat → Nat → Byte) (cw rows i j : Nat) : Int :=
  3 * pixel src cw i 0 (rowBelow j 3 rows) - 16 * pixel src cw i 1 (rowBelow j 2 rows)
    + 67 * pixel src cw i 2 (rowBelow j 1 rows) + 227 * pixel src cw i 3 j
    - 32 * pixel src cw i 4 (rowAbove j 1) + 7 * pixel src cw i 5 (rowAbove j 2) + 128

/-- One output sample of the upsampler at output row `r`: row `2j` is the even phase, row `2j + 1` the odd one
(spec R156, R157). -/
def upSample (src : Nat → Nat → Byte) (cw rows i r : Nat) : Byte :=
  if r % 2 = 0 then clip255 (asr (upAccEven src cw rows i (r / 2)) 8)
  else clip255 (asr (upAccOdd src cw rows i (r / 2)) 8)

/-- `down(src, cw, H)` (spec R152 to R154): a plane of `cw` columns and `rows/2` rows, output index `o` at column
`o % cw`, row `o / cw`. The plane is reading `n` of engine `inst`: where samples are unspecified, each tap of each output
sample finds a free byte of its own (spec R46). -/
def down (p : Plane) (cw rows inst n : Nat) : Plane :=
  (List.range (cw * (rows / 2))).map fun o =>
    some (downSample (p.tapRead inst n o) cw rows (o % cw) (2 * (o / cw)))

/-- `up(src, cw, h)` (spec R155 to R157): a plane of `cw` columns and `2*rows` rows; readings as in `down`. -/
def up (p : Plane) (cw rows inst n : Nat) : Plane :=
  (List.range (cw * (2 * rows))).map fun o => some (upSample (p.tapRead inst n o) cw rows (o % cw) (o / cw))

/-- The effect of DN422 on the Frame (spec R161): both chroma planes from the old planes (spec R160), `FFAM <- 0`. -/
def State.downFrame (s : State) : State :=
  { s with
    frame := { s.frame with
      ffam := .f420
      pcb := down s.frame.pcb (s.w / 2) s.h s.inst s.draws
      pcr := down s.frame.pcr (s.w / 2) s.h s.inst (s.draws + 1) }
    draws := s.draws + 2 }

/-- The effect of UP420 on the Frame (spec R162): both chroma planes from the old planes (spec R160), `FFAM <- 1`. -/
def State.upFrame (s : State) : State :=
  { s with
    frame := { s.frame with
      ffam := .f422
      pcb := up s.frame.pcb (s.w / 2) (s.h / 2) s.inst s.draws
      pcr := up s.frame.pcr (s.w / 2) (s.h / 2) s.inst (s.draws + 1) }
    draws := s.draws + 2 }

/-- DN422 (spec R161). -/
def execDn422 (s : State) : Host.Outcome State Fault Refusal :=
  s.runChecked (s.dimsOk .f420) true (s.frameOk .f422) fun t => t.downFrame

/-- UP420 (spec R162). -/
def execUp420 (s : State) : Host.Outcome State Fault Refusal :=
  s.runChecked (s.dimsOk .f420) true (s.frameOk .f420) fun t => t.upFrame

end Sys2Proof.Machine
end

