-- ==== Sys2Proof/Machine/Pipeline.lean ====
section
/-! DEFINITION. The conversion pipeline's command, CONV (spec 43_conversion_pipeline.md). -/

namespace Sys2Proof.Machine

open Sys2Proof

/-- The family test of CONV (spec R180, R181): 4:2:0 to 4:2:2 upsamples, 4:2:2 to 4:2:0 downsamples, the same family
leaves the planes alone. -/
def State.resampleFor (s : State) (src dst : Family) : State :=
  match src, dst with
  | .f420, .f422 => s.upFrame
  | .f422, .f420 => s.downFrame
  | .f420, .f420 => s
  | .f422, .f422 => s

/-- The effect of CONV (spec R181): decode, resample only if the families differ, encode. -/
def State.convertFrame (s : State) (fs fd : PixelFormat) : State :=
  ((s.loadFrame fs).resampleFor (fam fs) (fam fd)).storeFrame fd

/-- CONV fa, fb (spec R181). Both tags are checked before anything else (spec R192). -/
def execConv (fa fb : Tag) (s : State) : Host.Outcome State Fault Refusal :=
  match formatOf fa, formatOf fb with
  | some fs, some fd =>
    s.runChecked (s.dimsOk (fam fs) && s.dimsOk (fam fd)) (s.sizeOk fs) true fun t => t.convertFrame fs fd
  | none, _ => .next (s.raise .unsupportedFormat)
  | some _, none => .next (s.raise .unsupportedFormat)

end Sys2Proof.Machine
end

