-- ==== Sys2Proof/Machine/Dispatch.lean ====
section
/-! DEFINITION. The dispatch: one arm per command, one meaning per arm. -/

namespace Sys2Proof.Machine

open Sys2Proof

/-- What the engine step does with a decoded command (spec R25, steps 2 to 7 of R198). -/
def exec (i : Instr) (s : State) : Host.Outcome State Fault Refusal :=
  match i with
  | .layout fa => Sys2Proof.Machine.execLayout fa s
  | .dec fa => Sys2Proof.Machine.execDec fa s
  | .enc fa => Sys2Proof.Machine.execEnc fa s
  | .dn422 => Sys2Proof.Machine.execDn422 s
  | .up420 => Sys2Proof.Machine.execUp420 s
  | .conv fa fb => Sys2Proof.Machine.execConv fa fb s

end Sys2Proof.Machine
end

