-- ==== Sys2Proof/Machine/HostPort.lean ====
section
/-! DEFINITION. The host's side: the register map (spec R30) and the host's reads and writes of REG, IN and OUT
(spec R62, R65 to R69). -/

namespace Sys2Proof.Machine

open Sys2Proof

/-- The host registers, in the order of their offsets (spec R30). -/
inductive Reg where
  | cmd | status | ctrl | width | height | inLen | outLen | errinfo | frame | frameDim | lyFsize | lyKind
  | lyYStart | lyYStep | lyYCount | lyCbStart | lyCbStep | lyCbCount | lyCrStart | lyCrStep | lyCrCount
  deriving DecidableEq, Repr

/-- The register map: the register at each word offset from 0x00 to 0x50 (spec R30). -/
def registerMap : List Reg :=
  [.cmd, .status, .ctrl, .width, .height, .inLen, .outLen, .errinfo, .frame, .frameDim, .lyFsize, .lyKind,
   .lyYStart, .lyYStep, .lyYCount, .lyCbStart, .lyCbStep, .lyCbCount, .lyCrStart, .lyCrStep, .lyCrCount]

/-- The register at a byte offset that is a multiple of 4; none above 0x50 (spec R30, R42). -/
def regAt (off : Nat) : Option Reg := registerMap[off / 4]?

/-- What a register reads as (spec R31 to R41, R66). -/
def State.regValue (s : State) : Reg → Word
  | .cmd => 0#32
  | .status => s.statusWord
  | .ctrl => s.ctrlWord
  | .width => s.width.setWidth 32
  | .height => s.height.setWidth 32
  | .inLen => s.inLen
  | .outLen => s.outLen
  | .errinfo => s.errinfo
  | .frame => s.frameWord
  | .frameDim => s.frameDimWord
  | .lyFsize => s.ly.fsize
  | .lyKind => flagAt s.ly.packed 0
  | .lyYStart => s.ly.y.start
  | .lyYStep => s.ly.y.step
  | .lyYCount => s.ly.y.count
  | .lyCbStart => s.ly.cb.start
  | .lyCbStep => s.ly.cb.step
  | .lyCbCount => s.ly.cb.count
  | .lyCrStart => s.ly.cr.start
  | .lyCrStep => s.ly.cr.step
  | .lyCrCount => s.ly.cr.count

/-- `MemRead(REG, off, 4)` (spec R66): 0 at an unmapped offset (spec R42). -/
def State.regRead (s : State) (off : Nat) : Word :=
  match regAt off with
  | some r => s.regValue r
  | none => 0#32

/-- A host write to CMD (spec R31, R65): issued when idle with no fault latched, else discarded. -/
def State.writeCmd (s : State) (v : Word) : State :=
  if s.phase = .idle ∧ s.err = none then s.issue v else s.discardWrite

/-- A host write to WIDTH (spec R34, R65): bits 15:0 when idle, else discarded. -/
def State.writeWidth (s : State) (v : Word) : State :=
  if s.phase = .idle then { s with width := v.setWidth 16 } else s.discardWrite

/-- A host write to HEIGHT (spec R35, R65): bits 15:0 when idle, else discarded. -/
def State.writeHeight (s : State) (v : Word) : State :=
  if s.phase = .idle then { s with height := v.setWidth 16 } else s.discardWrite

/-- A host write to IN_LEN (spec R36, R65): when idle, else discarded. -/
def State.writeInLen (s : State) (v : Word) : State :=
  if s.phase = .idle then { s with inLen := v } else s.discardWrite

/-- `MemWrite(REG, off, 4, v)` (spec R65): a read-only register or an unmapped offset ignores it (spec R42). -/
def State.regWrite (s : State) (off : Nat) (v : Word) : State :=
  match regAt off with
  | some .ctrl => s.writeCtrl v
  | some .status => s.writeStatus v
  | some .cmd => s.writeCmd v
  | some .width => s.writeWidth v
  | some .height => s.writeHeight v
  | some .inLen => s.writeInLen v
  | _ => s

/-- A host write to byte `k` of IN (spec R67): when idle, else discarded. -/
def State.writeIn (s : State) (k : Nat) (b : Byte) : State :=
  if s.phase = .idle then { s with inMem := s.inMem.write k b } else s.discardWrite

/-- The byte of IN that a host read has a claim to: none while busy or where unspecified (spec R67). -/
def State.inByte (s : State) (k : Nat) : Option Byte := if s.phase = .idle then s.inMem.read k else none

/-- The byte of OUT that a host read has a claim to: none while busy or at or above OUT_LEN (spec R68). -/
def State.outByte (s : State) (k : Nat) : Option Byte :=
  if s.phase = .idle ∧ k < s.outLen.toNat then s.outMem.read k else none

/-- The host's read returned something. -/
def State.reply (s : State) (r : Reply) : State := { s with replies := r :: s.replies }

/-- A host read of a buffer byte: the byte it has a claim to, else a free draw (spec R46, R67, R68). -/
def State.replyByte (s : State) (held : Option Byte) (mk : Byte → Reply) : State :=
  match held with
  | some b => s.reply (mk b)
  | none => { s.reply (mk (Config.freeByte s.inst s.draws 0 0)) with draws := s.draws + 1 }

/-- A REG access is a step of the host when it is 4 bytes wide at a multiple of 4 (spec R62). -/
def regShapeOk (addr n : Nat) : Bool := n == 4 && addr % 4 == 0

/-- A buffer access is a step of the host when it is one byte wide below `CAP` (spec R62). -/
def State.bufferStep (s : State) (k n : Nat) (t : State) : Host.Outcome State Fault Refusal :=
  if n ≠ 1 then .refused .bufferAccessNotByte
  else if k < s.cap then .next t
  else .refused .bufferOffsetBeyondCap

/-- One access of the host (spec R65 to R69). A byte write carries the byte in the low 8 bits of its value. -/
def hostAccess (a : HostAccess) (s : State) : Host.Outcome State Fault Refusal :=
  match a with
  | .read .reg off n =>
    if regShapeOk off n then .next (s.reply (.reg off (s.regRead off))) else .refused .regAccessMisshapen
  | .write .reg off n v =>
    if regShapeOk off n then .next (s.regWrite off v) else .refused .regAccessMisshapen
  | .read .inBuf k n => s.bufferStep k n (s.replyByte (s.inByte k) (.inByte k))
  | .write .inBuf k n v => s.bufferStep k n (s.writeIn k (v.setWidth 8))
  | .read .outBuf k n => s.bufferStep k n (s.replyByte (s.outByte k) (.outByte k))
  | .write .outBuf k n _ => s.bufferStep k n s

end Sys2Proof.Machine
end

