-- ==== Sys2Proof/Machine/Engine.lean ====
section
/-! DEFINITION. The engine step (spec R25) and the turns of the machine: whose step is next (spec R19). -/

namespace Sys2Proof.Machine

open Sys2Proof

/-- The engine step on a latched word (spec R25, step 1 of R198): an illegal word raises IllegalCommand (spec R191). -/
def runWord (w : Word) (s : State) : Host.Outcome State Fault Refusal :=
  match decode w with
  | .command i => exec i s
  | .illegal _ => .next (s.raise .illegalCommand)

/-- The engine's turn: the engine step while `PHASE = BUSY`; in `IDLE` it does nothing (spec R25, R212). -/
def engineTurn (s : State) : Host.Outcome State Fault Refusal :=
  match s.phase with
  | .idle => .next s
  | .busy => runWord s.cmdl s

/-- One step of the machine: the turn at the head of `turns`, the engine's where none is left (spec R19, R225). -/
def takeTurn (s : State) : Host.Outcome State Fault Refusal :=
  match s.turns with
  | [] => engineTurn s
  | .engine :: rest => engineTurn { s with turns := rest }
  | .host a :: rest => hostAccess a { s with turns := rest }
  | .hardReset :: rest => .next { s with turns := rest }.resetEngine

/-- The state whose very next step runs the command numbered `w` as spec/opcode_table.json numbers it. -/
def fetchable (s : State) (nbits w : Nat) : State := s.presentCommand (tableWord nbits w)

end Sys2Proof.Machine
end

