-- ==== Sys2Proof/Machine/Step.lean ====
section
/-! DEFINITION. One step of the machine, and a state that fetches a given word next. -/

namespace Sys2Proof.Machine

/-- One step: whoever's turn it is takes one atomic step (spec R19, R63). -/
def step (s : State) : Host.Outcome State Fault Refusal := takeTurn s

/-- `s` with the command of bits `w` latched and the engine's turn next. The engine fetches nothing from memory
(spec R24, R73): a command runs when it has been issued. Log entry 7. -/
def State.withFetchWord (s : State) (nbits w : Nat) : State := fetchable s nbits w

end Sys2Proof.Machine
end

