-- ==== Sys2Proof/Machine/Chip.lean ====
section
/-! DEFINITION. Several engines on one chip (spec R211): each has its own registers, buffers, Frame and irq, and a
step of one is a step of that one alone. -/

namespace Sys2Proof.Machine

/-- The instances of a chip; `N_INST` is the length (spec R6, R211). -/
abbrev Chip := List State

/-- Every instance starts in the reset state (spec R211). The spec does not say whether the instances share one `CAP`
(R6): each takes the capacity its place in `caps` gives it, so that nothing is settled. Each carries its own number, so
that no free reading of one is one of another (R46). Log entry 8. -/
def chipReset (caps : List Nat) : Chip := caps.mapIdx fun k cap => { State.resetWith cap with inst := k }

/-- Instance `k` takes one step. Where there is no instance `k`, nothing moves. -/
def chipStep (chip : Chip) (k : Nat) : Host.Outcome Chip Fault Refusal :=
  match chip[k]? with
  | none => .next chip
  | some s =>
    match step s with
    | .next t => .next (chip.set k t)
    | .fault r => .fault r
    | .refused r => .refused r

end Sys2Proof.Machine
end

