-- ==== Sys2Proof/Safety.lean ====
section
/-! DEFINITION. What counts as a sound state and a good end of a run, in the terms the statements use. -/

namespace Sys2Proof.Safety

open Sys2Proof Sys2Proof.Machine

/-- Both buffers are in canonical form, and everything specified in them lies below `CAP` (spec R28). -/
def BuffersSound (s : State) : Prop :=
  s.inMem.wf = true ∧ s.outMem.wf = true ∧
  (∀ k b, s.inMem.read k = some b → k < s.cap) ∧ (∀ k b, s.outMem.read k = some b → k < s.cap)

/-- Nothing in OUT is specified at or above OUT_LEN, and OUT_LEN is within `CAP` (spec R29, R37, R68). -/
def OutputSound (s : State) : Prop :=
  s.outLen.toNat ≤ s.cap ∧ ∀ k b, s.outMem.read k = some b → k < s.outLen.toNat

/-- The flags and the fault latch: while a command is latched no fault and no DONE is (spec R31); DONE and a fault are
never both set (spec R32); ERRINFO is 0 while no fault is latched (spec R38). -/
def LatchSound (s : State) : Prop :=
  (s.phase = .busy → s.err = none ∧ s.done = false) ∧ (s.err ≠ none → s.done = false) ∧
  (s.err = none → s.errinfo = 0#32)

/-- The number of samples of a chroma plane (spec R22). -/
def chromaLength (F : Family) (w h : Nat) : Nat :=
  match F with
  | .f420 => w * h / 4
  | .f422 => w * h / 2

/-- A valid Frame has legal dimensions and planes of exactly the lengths of spec R22; without one the tag is 0 and no
sample is valid (spec R22, R39, R40, R45). -/
def FrameSound (s : State) : Prop :=
  (s.frame.fv = true →
    dimsOk s.cap s.frame.ffam s.frame.fw.toNat s.frame.fh.toNat = true ∧
    s.frame.py.length = s.frame.fw.toNat * s.frame.fh.toNat ∧
    s.frame.pcb.length = chromaLength s.frame.ffam s.frame.fw.toNat s.frame.fh.toNat ∧
    s.frame.pcr.length = chromaLength s.frame.ffam s.frame.fw.toNat s.frame.fh.toNat) ∧
  (s.frame.fv = false → s.frame = Frame.none)

/-! The terms in which the statements say what the spec says, written from the rules and not from the model's own
operations. -/

/-- Dimensions that pass the check of spec R115. -/
def LegalDims (cap : Nat) (F : Family) (w h : Nat) : Prop :=
  2 ≤ w ∧ w % 2 = 0 ∧ 1 ≤ h ∧ (F = .f422 ∨ h % 2 = 0) ∧ 2 * w * h ≤ cap

/-- The current WIDTH and HEIGHT pass the check for a family (spec R93, R115). -/
def Dims (s : State) (F : Family) : Prop := LegalDims s.cap F s.width.toNat s.height.toNat

/-- A Frame is there, has the current dimensions and is on the grid of family `F` (spec R195). -/
def FrameFits (s : State) (F : Family) : Prop :=
  s.frame.fv = true ∧ s.frame.fw = s.width ∧ s.frame.fh = s.height ∧ s.frame.ffam = F

/-- W16 after a passed dimension check (spec R116). -/
def warned (s : State) : Bool := s.w16 || s.width.toNat % 16 != 0 || s.height.toNat % 16 != 0

/-- The state after fault entry with kind `k` and nothing else (spec R200). -/
def faulted (s : State) (k : FaultKind) : State :=
  { s with err := some k, errinfo := s.cmdl, phase := .idle }

/-- The state after fault entry that comes after a passed dimension check (spec R198, R200). -/
def faultedWarned (s : State) (k : FaultKind) : State := { faulted s k with w16 := warned s }

/-- Completion without the command's own effects (spec R207), W16 as R116 says. -/
def completed (s : State) : State := { s with done := true, phase := .idle, w16 := warned s }

/-- The fault that the checks of spec R198 decide for a command, in their order; none when it completes. -/
def firstFault (i : Instr) (s : State) : Option FaultKind :=
  let w := s.width.toNat
  let h := s.height.toNat
  let dims : Family → Bool := fun F =>
    decide (2 ≤ w ∧ w % 2 = 0 ∧ 1 ≤ h ∧ (F = .f422 ∨ h % 2 = 0) ∧ 2 * w * h ≤ s.cap)
  let fits : Family → Bool := fun F =>
    decide (s.frame.fv = true ∧ s.frame.fw = s.width ∧ s.frame.fh = s.height ∧ s.frame.ffam = F)
  match i with
  | .layout (.unlisted _) => some .unsupportedFormat
  | .dec (.unlisted _) => some .unsupportedFormat
  | .enc (.unlisted _) => some .unsupportedFormat
  | .conv (.unlisted _) _ => some .unsupportedFormat
  | .conv _ (.unlisted _) => some .unsupportedFormat
  | .layout (.fmt f) => if dims (fam f) then none else some .dimError
  | .dec (.fmt f) =>
    if !dims (fam f) then some .dimError else if s.inLen.toNat ≠ fsize f w h then some .sizeMismatch else none
  | .enc (.fmt f) =>
    if !dims (fam f) then some .dimError else if !fits (fam f) then some .frameError else none
  | .dn422 => if !dims .f420 then some .dimError else if !fits .f422 then some .frameError else none
  | .up420 => if !dims .f420 then some .dimError else if !fits .f420 then some .frameError else none
  | .conv (.fmt fs) (.fmt fd) =>
    if !(dims (fam fs) && dims (fam fd)) then some .dimError
    else if s.inLen.toNat ≠ fsize fs w h then some .sizeMismatch else none

/-- What LAYOUT computes, in the order of the registers at 0x28 to 0x50: the frame size, the kind, and start, step and
count for Y, Cb and Cr (spec R112, R113, R117). -/
def descriptorNumbers (f : PixelFormat) (w h : Nat) : List Nat :=
  let wh := w * h
  match f with
  | .yv12 => [wh * 3 / 2, 0, 0, 1, wh, wh, 1, wh / 4, wh + wh / 4, 1, wh / 4]
  | .iyuv => [wh * 3 / 2, 0, 0, 1, wh, wh + wh / 4, 1, wh / 4, wh, 1, wh / 4]
  | .uyvy => [wh * 2, 1, 1, 2, wh, 0, 4, wh / 2, 2, 4, wh / 2]
  | .yvyu => [wh * 2, 1, 0, 2, wh, 3, 4, wh / 2, 1, 4, wh / 2]
  | .yuy2 => [wh * 2, 1, 0, 2, wh, 1, 4, wh / 2, 3, 4, wh / 2]
  | .y422 => [wh * 2, 0, 0, 1, wh, wh, 1, wh / 2, wh + wh / 2, 1, wh / 2]

/-- A plane holds, in order, the bytes of a raw frame at the offsets of an accessor; an unspecified byte gives an
unspecified sample (spec R130, R132). -/
def GatheredFrom (raw : Memory) (a : Accessor) (p : Plane) : Prop :=
  p.length = a.count ∧ ∀ k < a.count, p[k]? = some (raw.read (a.start + k * a.step))

/-- Three planes are the decoding of a raw frame (spec R130). -/
def DecodedFrom (raw : Memory) (f : PixelFormat) (w h : Nat) (py pcb pcr : Plane) : Prop :=
  GatheredFrom raw (layout f w h).y py ∧ GatheredFrom raw (layout f w h).cb pcb ∧
  GatheredFrom raw (layout f w h).cr pcr

/-- A buffer holds the samples of a plane at the offsets of an accessor: the byte of each specified sample, and an
unspecified byte for each that is not (spec R131, R46). -/
def ScatteredTo (out : Memory) (a : Accessor) (p : Plane) : Prop :=
  ∀ k < a.count, out.read (a.start + k * a.step) = p[k]?.join

/-- A buffer is the encoding of three planes, and nothing from `fsize` on is specified in it (spec R131, R133). -/
def EncodedFrom (out : Memory) (f : PixelFormat) (w h : Nat) (py pcb pcr : Plane) : Prop :=
  ScatteredTo out (layout f w h).y py ∧ ScatteredTo out (layout f w h).cb pcb ∧
  ScatteredTo out (layout f w h).cr pcr ∧ ∀ o, fsize f w h ≤ o → out.read o = none

/-- The downsampler's sum of spec R153 with the row indexes of R152, over one column of `rows` rows. `x n r` is what the
tap that is written at place `n` of the sum reads in row `r`: on specified samples that is the same for every tap, on an
unspecified one each tap may find another byte (spec R46). -/
def downSum (x : Nat → Nat → Int) (rows j : Nat) : Int :=
  228 * (x 0 j + x 1 (min (j + 1) (rows - 1))) + 70 * (x 2 (j - 1) + x 3 (min (j + 2) (rows - 1)))
    - 37 * (x 4 (j - 2) + x 5 (min (j + 3) (rows - 1))) - 21 * (x 6 (j - 3) + x 7 (min (j + 4) (rows - 1)))
    + 11 * (x 8 (j - 4) + x 9 (min (j + 5) (rows - 1))) + 5 * (x 10 (j - 5) + x 11 (min (j + 5) (rows - 1))) + 256

/-- The same sum over one column of specified samples with the canonical sixth tap, row `j+6`, which this hardware does NOT have (spec R164). -/
def canonicalDownSum (x : Nat → Int) (rows j : Nat) : Int :=
  228 * (x j + x (min (j + 1) (rows - 1))) + 70 * (x (j - 1) + x (min (j + 2) (rows - 1)))
    - 37 * (x (j - 2) + x (min (j + 3) (rows - 1))) - 21 * (x (j - 3) + x (min (j + 4) (rows - 1)))
    + 11 * (x (j - 4) + x (min (j + 5) (rows - 1))) + 5 * (x (j - 5) + x (min (j + 6) (rows - 1))) + 256

/-- The upsampler's even sum of spec R156 over one column of `rows` rows; `x` as in `downSum`. -/
def evenSum (x : Nat → Nat → Int) (rows j : Nat) : Int :=
  3 * x 0 (j - 3) - 16 * x 1 (j - 2) + 67 * x 2 (j - 1) + 227 * x 3 j - 32 * x 4 (min (j + 1) (rows - 1))
    + 7 * x 5 (min (j + 2) (rows - 1)) + 128

/-- The upsampler's odd sum of spec R157 over one column of `rows` rows; `x` as in `downSum`. -/
def oddSum (x : Nat → Nat → Int) (rows j : Nat) : Int :=
  3 * x 0 (min (j + 3) (rows - 1)) - 16 * x 1 (min (j + 2) (rows - 1)) + 67 * x 2 (min (j + 1) (rows - 1))
    + 227 * x 3 j - 32 * x 4 (j - 1) + 7 * x 5 (j - 2) + 128

/-- What the taps of a filter can read in column `i` of a plane: every specified sample as it is; where a sample is
unspecified, any byte at each tap (spec R23, R46). -/
def ColumnOf (p : Plane) (cw rows i : Nat) (x : Nat → Nat → Byte) : Prop :=
  ∀ n : Nat, ∀ r < rows, ∀ b, p[r * cw + i]? = some (some b) → x n r = b

/-- What the taps read as integers 0 to 255 (spec R151). -/
def ints (x : Nat → Nat → Byte) (n r : Nat) : Int := ((x n r).toNat : Int)

/-- `dst` is `src` downsampled (spec R152 to R154). -/
def DownsampledFrom (src dst : Plane) (cw rows : Nat) : Prop :=
  dst.length = cw * (rows / 2) ∧ ∀ i < cw, ∀ r < rows / 2, ∃ x, ColumnOf src cw rows i x ∧
    ∃ b : Byte, dst[r * cw + i]? = some (some b) ∧
      (b.toNat : Int) = max 0 (min 255 (downSum (ints x) rows (2 * r) / 512))

/-- `dst` is `src` upsampled (spec R155 to R157). -/
def UpsampledFrom (src dst : Plane) (cw rows : Nat) : Prop :=
  dst.length = cw * (2 * rows) ∧ ∀ i < cw, ∀ j < rows,
    (∃ x, ColumnOf src cw rows i x ∧ ∃ b : Byte, dst[2 * j * cw + i]? = some (some b) ∧
      (b.toNat : Int) = max 0 (min 255 (evenSum (ints x) rows j / 256))) ∧
    (∃ x, ColumnOf src cw rows i x ∧ ∃ b : Byte, dst[(2 * j + 1) * cw + i]? = some (some b) ∧
      (b.toNat : Int) = max 0 (min 255 (oddSum (ints x) rows j / 256)))

/-- The chroma of a conversion from family `F` to family `G` (spec R180): up, down or unchanged. -/
def ResampledFrom (F G : Family) (src dst : Plane) (w h : Nat) : Prop :=
  match F, G with
  | .f420, .f422 => UpsampledFrom src dst (w / 2) (h / 2)
  | .f422, .f420 => DownsampledFrom src dst (w / 2) h
  | .f420, .f420 => dst = src
  | .f422, .f422 => dst = src

/-- What spec R45 says of the state after a reset. -/
def ResetValues (t : State) : Prop :=
  t.phase = .idle ∧ t.statusWord = 0#32 ∧ t.ctrlWord = 0#32 ∧ t.width = 0#16 ∧ t.height = 0#16 ∧
  t.inLen = 0#32 ∧ t.outLen = 0#32 ∧ t.errinfo = 0#32 ∧
  t.frame.fv = false ∧ t.frame.ffam = .f420 ∧ t.frame.fw = 0#16 ∧ t.frame.fh = 0#16 ∧
  (∀ off, t.regRead off = 0#32) ∧
  (∀ k, t.inMem.read k = none) ∧ (∀ k, t.outMem.read k = none) ∧
  t.frame.py = [] ∧ t.frame.pcb = [] ∧ t.frame.pcr = [] ∧ t.irq = false

/-- It is the engine's turn: the schedule says so, or nothing else is left (spec R19, R225). -/
def EngineTurn (s : State) : Prop := s.turns = [] ∨ s.turns.head? = some .engine

/-- It is the turn of a reset: the reset input, or a host write to CTRL with bit 31 set (spec R220, R221). -/
def ResetTurn (s : State) : Prop :=
  s.turns.head? = some .hardReset ∨
  ∃ v : Word, v.getLsbD 31 = true ∧ s.turns.head? = some (.host (.write .reg 0x08 4 v))

/-- It is the turn of a host write to STATUS with bit `n` set (spec R32). -/
def StatusClearTurn (s : State) (n : Nat) : Prop :=
  ∃ v : Word, v.getLsbD n = true ∧ s.turns.head? = some (.host (.write .reg 0x04 4 v))

/-- The turns in which the host issues commands one after the other, each followed by the engine's turn
(the `cmd` and `wait` lines of spec R97). -/
def commandTurns (is : List Instr) : List Turn :=
  is.flatMap fun i => [.host (.write .reg 0x00 4 (encode i)), .engine]

/-- The run of the machine through a given list of turns. -/
def runTurns (s : State) (ts : List Turn) : Host.Outcome State Fault Refusal :=
  Host.Core.run Sys2Proof.core ts.length { s with turns := ts }

/-- The command sequence that spec R182 sets beside `CONV fa, fb`. -/
def convSequence (fa fb : Tag) : List Instr :=
  match fa, fb with
  | .fmt fs, .fmt fd =>
    match fam fs, fam fd with
    | .f420, .f422 => [.dec fa, .up420, .enc fb]
    | .f422, .f420 => [.dec fa, .dn422, .enc fb]
    | .f420, .f420 => [.dec fa, .enc fb]
    | .f422, .f422 => [.dec fa, .enc fb]
  | .unlisted _, _ => [.dec fa, .enc fb]
  | .fmt _, .unlisted _ => [.dec fa, .enc fb]

/-- No fault is latched: what a claim about a run that ends well needs at every point (spec R203). -/
def NoFault (s : State) : Prop := s.err = none

/-- The end of a run (spec R225): no turn is left and the engine waits. -/
def RunOver (s : State) : Prop := s.turns = [] ∧ s.phase = .idle

/-- A good end: the run is over and no fault is latched (spec R225). -/
def GoodEnd (s : State) : Prop := RunOver s ∧ NoFault s

end Sys2Proof.Safety
end

