-- ==== Sys2Proof/Certificates/Slice0/Obligations.lean ====
section
/-! DEFINITION. The statements about the engine, each from a numbered rule of spec/. A host access at the head of the
turns is written `{ s with turns := .host a :: rest }`; the engine's turn is `EngineTurn s`. -/

open Sys2Proof Sys2Proof.Machine Sys2Proof.Safety

/-! ## Encoding -/

/-- Spec R96: the words it gives for eight commands are read as those commands, and are what they encode to. -/
def Obligations.SpecWordsDecode : Prop :=
  decode 0b00000000000000000000000000100001#32 = .command (.layout (.fmt .uyvy)) ∧
  decode 0b00000000000000000000000000000010#32 = .command (.dec (.fmt .yv12)) ∧
  decode 0b00000000000000000000000000010011#32 = .command (.enc (.fmt .iyuv)) ∧
  decode 0b00000000000000000000000000000100#32 = .command .dn422 ∧
  decode 0b00000000000000000000000000000101#32 = .command .up420 ∧
  decode 0b00000000000000000000000000100110#32 = .command (.conv (.fmt .uyvy) (.fmt .yv12)) ∧
  decode 0b00000000000000000000010000000110#32 = .command (.conv (.fmt .yv12) (.fmt .yuy2)) ∧
  decode 0b00000000000000000000000001110010#32 = .command (.dec (.unlisted 7)) ∧
  encode (.layout (.fmt .uyvy)) = 0x00000021#32 ∧ encode (.dec (.fmt .yv12)) = 0x00000002#32 ∧
  encode (.enc (.fmt .iyuv)) = 0x00000013#32 ∧ encode .dn422 = 0x00000004#32 ∧ encode .up420 = 0x00000005#32 ∧
  encode (.conv (.fmt .uyvy) (.fmt .yv12)) = 0x00000026#32 ∧
  encode (.conv (.fmt .yv12) (.fmt .yuy2)) = 0x00000406#32 ∧ encode (.dec (.unlisted 7)) = 0x00000072#32

/-- Spec R90 to R92, R98: every well-formed command, with every tag its fields admit, is read back from its word. -/
def Obligations.EncodedCommandsDecodeBack : Prop :=
  ∀ i : Instr, i.wellFormed = true → decode (encode i) = .command i

/-- Spec R90 to R92, R98: a word that is a command is a well-formed one and is its encoding, so every word has one
meaning. -/
def Obligations.DecodedWordsEncodeBack : Prop :=
  ∀ (w : Word) (i : Instr), decode w = .command i → i.wellFormed = true ∧ encode i = w

/-- Spec R98: the six rows of match and mask, each with the raw tags of its fields; every other word is illegal. -/
def Obligations.DecodeSelectsTheTableRow : Prop :=
  ∀ w : Word,
    let fa := Tag.ofCode (w.extractLsb' 4 4)
    let fb := Tag.ofCode (w.extractLsb' 8 4)
    (w &&& 0xFFFFFF0F#32 = 0x00000001#32 → decode w = .command (.layout fa)) ∧
    (w &&& 0xFFFFFF0F#32 = 0x00000002#32 → decode w = .command (.dec fa)) ∧
    (w &&& 0xFFFFFF0F#32 = 0x00000003#32 → decode w = .command (.enc fa)) ∧
    (w &&& 0xFFFFFFFF#32 = 0x00000004#32 → decode w = .command .dn422) ∧
    (w &&& 0xFFFFFFFF#32 = 0x00000005#32 → decode w = .command .up420) ∧
    (w &&& 0xFFFFF00F#32 = 0x00000006#32 → decode w = .command (.conv fa fb)) ∧
    ((w &&& 0xFFFFFF0F#32 ≠ 0x00000001#32 ∧ w &&& 0xFFFFFF0F#32 ≠ 0x00000002#32 ∧
      w &&& 0xFFFFFF0F#32 ≠ 0x00000003#32 ∧ w &&& 0xFFFFFFFF#32 ≠ 0x00000004#32 ∧
      w &&& 0xFFFFFFFF#32 ≠ 0x00000005#32 ∧ w &&& 0xFFFFF00F#32 ≠ 0x00000006#32) ↔
      ∃ r, decode w = .illegal r)

/-! ## The engine step -/

/-- Spec R25, R198 step 1: the engine's turn with a latched word that decodes runs that command on the state, its turn
taken off the schedule. The second clause is no rule of the spec: it says of `State.withFetchWord`, the model's own way
to place a word (DESIGN CHOICE, log entry 7: it asks neither for an idle engine nor for an empty fault latch, as the
issue of R31 does), that the very next step runs the command placed. -/
def Obligations.StepRunsTheLatchedCommand : Prop :=
  (∀ (s : State) (i : Instr), EngineTurn s → s.phase = .busy → decode s.cmdl = .command i →
    step s = exec i { s with turns := s.turns.tail }) ∧
  (∀ (s : State) (nbits w : Nat) (i : Instr), decodeTableWord nbits w = some i →
    step (s.withFetchWord nbits w) = exec i (s.issue (tableWord nbits w)))

/-- Spec R25, R212: the engine's turn while idle changes nothing but the schedule. -/
def Obligations.IdleEngineDoesNothing : Prop :=
  ∀ s : State, EngineTurn s → s.phase = .idle → step s = .next { s with turns := s.turns.tail }

/-- Spec R191: a latched word that is illegal takes the fault IllegalCommand, code 1, and nothing else happens. -/
def Obligations.IllegalWordTakesTheFault : Prop :=
  ∀ (s : State) (r : Illegal), EngineTurn s → s.phase = .busy → decode s.cmdl = .illegal r →
    step s = .next (faulted { s with turns := s.turns.tail } .illegalCommand) ∧
    (faulted { s with turns := s.turns.tail } .illegalCommand).errCode = 1#4

/-- Spec R25, R185, R200, R207: every command answers a next state, idle, either completed with ERR and ERRINFO as
before or faulted with DONE as before and the command word in ERRINFO. -/
def Obligations.EveryCommandEndsIdle : Prop :=
  ∀ (i : Instr) (s : State), ∃ t, exec i s = .next t ∧ t.phase = .idle ∧
    ((t.done = true ∧ t.err = s.err ∧ t.errinfo = s.errinfo) ∨
     (∃ k, t.err = some k ∧ t.errinfo = s.cmdl ∧ t.done = s.done))

/-- Spec R198: a word that does not decode takes IllegalCommand; for one that does, the first check that fails decides
the fault, and with none the command completes. W16 is noted exactly when the dimension check is passed. -/
def Obligations.ChecksDecideInOrder : Prop :=
  ∀ (w : Word) (s : State), ∃ t, runWord w s = .next t ∧
    (∀ r, decode w = .illegal r → t = faulted s .illegalCommand) ∧
    (∀ i, decode w = .command i →
      (∀ k, firstFault i s = some k →
        t = if k = .unsupportedFormat ∨ k = .dimError then faulted s k else faultedWarned s k) ∧
      (firstFault i s = none → t.done = true ∧ t.err = s.err ∧ t.w16 = warned s ∧ t.phase = .idle))

/-! ## Faults -/

/-- Spec R192: a tag of 6 or more takes UnsupportedFormat, code 2, before anything else, whatever the rest of the
state. -/
def Obligations.UnlistedTagTakesUnsupportedFormat : Prop :=
  ∀ (s : State) (n : Nat) (g : Tag),
    exec (.layout (.unlisted n)) s = .next (faulted s .unsupportedFormat) ∧
    exec (.dec (.unlisted n)) s = .next (faulted s .unsupportedFormat) ∧
    exec (.enc (.unlisted n)) s = .next (faulted s .unsupportedFormat) ∧
    exec (.conv (.unlisted n) g) s = .next (faulted s .unsupportedFormat) ∧
    exec (.conv g (.unlisted n)) s = .next (faulted s .unsupportedFormat) ∧
    (faulted s .unsupportedFormat).errCode = 2#4

/-- Spec R193: each of the six commands takes DimError, code 3, when its dimension check fails, with W16 as it was. -/
def Obligations.BadDimensionsTakeDimError : Prop :=
  ∀ (s : State) (f g : PixelFormat),
    (¬ Dims s (fam f) → exec (.layout (.fmt f)) s = .next (faulted s .dimError) ∧
      exec (.dec (.fmt f)) s = .next (faulted s .dimError) ∧ exec (.enc (.fmt f)) s = .next (faulted s .dimError)) ∧
    (¬ Dims s .f420 → exec .dn422 s = .next (faulted s .dimError) ∧ exec .up420 s = .next (faulted s .dimError)) ∧
    (¬ (Dims s (fam f) ∧ Dims s (fam g)) → exec (.conv (.fmt f) (.fmt g)) s = .next (faulted s .dimError)) ∧
    (faulted s .dimError).errCode = 3#4

/-- Spec R194: DEC and CONV take SizeMismatch, code 4, when IN_LEN is not the source frame size, short or long, W16
noted; and then a further write to CMD is discarded. -/
def Obligations.WrongLengthTakesSizeMismatch : Prop :=
  ∀ (s : State) (f g : PixelFormat), s.inLen.toNat ≠ fsize f s.width.toNat s.height.toNat →
    (Dims s (fam f) → exec (.dec (.fmt f)) s = .next (faultedWarned s .sizeMismatch)) ∧
    (Dims s (fam f) → Dims s (fam g) →
      exec (.conv (.fmt f) (.fmt g)) s = .next (faultedWarned s .sizeMismatch)) ∧
    (faultedWarned s .sizeMismatch).errCode = 4#4 ∧
    (∀ v, (faultedWarned s .sizeMismatch).regWrite 0x00 v = { faultedWarned s .sizeMismatch with haz := true })

/-- Spec R195: ENC, DN422 and UP420 take FrameError, code 5, when the Frame is absent, of other dimensions or on
another grid, W16 noted. -/
def Obligations.UnfitFrameTakesFrameError : Prop :=
  ∀ (s : State) (f : PixelFormat),
    (Dims s (fam f) → ¬ FrameFits s (fam f) → exec (.enc (.fmt f)) s = .next (faultedWarned s .frameError)) ∧
    (Dims s .f420 → ¬ FrameFits s .f422 → exec .dn422 s = .next (faultedWarned s .frameError)) ∧
    (Dims s .f420 → ¬ FrameFits s .f420 → exec .up420 s = .next (faultedWarned s .frameError)) ∧
    (faultedWarned s .frameError).errCode = 5#4

/-- Spec R201: a command word whose engine step ends with a fault, where none was latched, changes nothing but ERR, ERRINFO, the phase and
possibly W16; DONE is 0 after it when it was 0 before it. -/
def Obligations.FaultsArePrecise : Prop :=
  ∀ (w : Word) (s t : State) (k : FaultKind), runWord w s = .next t → s.err = none → t.err = some k →
    t = { s with err := some k, errinfo := s.cmdl, phase := .idle, w16 := t.w16 } ∧
    (t.w16 = s.w16 ∨ t.w16 = warned s) ∧ (s.done = false → t.done = false)

/-- Spec R202, R203: while no command is latched, a latched fault and its ERRINFO stay through every step but a reset.
(No command is latched while a fault is: LatchStaysSound.) -/
def Obligations.OnlyResetClearsTheFault : Prop :=
  ∀ (s t : State) (k : FaultKind), LatchSound s → s.err = some k → step s = .next t → ¬ ResetTurn s →
    t.err = some k ∧ t.errinfo = s.errinfo ∧ t.phase = .idle

/-! ## The commands -/

/-- Spec R112, R113, R117: LAYOUT completes with the eleven numbers of the descriptor in the registers at 0x28 to 0x50,
none of them cut off, and changes nothing else. -/
def Obligations.LayoutStoresTheDescriptor : Prop :=
  ∀ (s : State) (f : PixelFormat), Config.capLegal s.cap = true → Dims s (fam f) →
    ∃ t, exec (.layout (.fmt f)) s = .next t ∧ t = { completed s with ly := t.ly } ∧
      [0x28, 0x2C, 0x30, 0x34, 0x38, 0x3C, 0x40, 0x44, 0x48, 0x4C, 0x50].map (fun off => (t.regRead off).toNat) =
        descriptorNumbers f s.width.toNat s.height.toNat

/-- Spec R130, R132: DEC completes with the three planes gathered along the accessors and the tag of the format and
dimensions, and changes nothing else. -/
def Obligations.DecGathersTheFrame : Prop :=
  ∀ (s : State) (f : PixelFormat), Dims s (fam f) → s.inLen.toNat = fsize f s.width.toNat s.height.toNat →
    ∃ t, exec (.dec (.fmt f)) s = .next t ∧ t = { completed s with frame := t.frame } ∧
      DecodedFrom s.inMem f s.width.toNat s.height.toNat t.frame.py t.frame.pcb t.frame.pcr ∧
      t.frame.fv = true ∧ t.frame.ffam = fam f ∧ t.frame.fw = s.width ∧ t.frame.fh = s.height

/-- Spec R131, R133: ENC completes with every sample at its offset in OUT (an unspecified sample leaves an unspecified
byte: the model's reading of R131 with R46, log entry 4), nothing specified from the frame size on and OUT_LEN the
frame size, and changes nothing else. -/
def Obligations.EncScattersTheFrame : Prop :=
  ∀ (s : State) (f : PixelFormat), Config.capLegal s.cap = true → Dims s (fam f) → FrameFits s (fam f) →
    ∃ t, exec (.enc (.fmt f)) s = .next t ∧
      t = { completed s with outMem := t.outMem, outLen := t.outLen } ∧
      EncodedFrom t.outMem f s.width.toNat s.height.toNat s.frame.py s.frame.pcb s.frame.pcr ∧
      t.outLen.toNat = fsize f s.width.toNat s.height.toNat

/-- Spec R152 to R154, R161: DN422 completes with both chroma planes downsampled and FFAM 0, and changes nothing else
(but the model's counter of free readings, log entry 4). On specified planes every number is exact; on an unspecified
sample each tap may find any byte (R46). -/
def Obligations.Dn422Downsamples : Prop :=
  ∀ s : State, Dims s .f420 → FrameFits s .f422 →
    ∃ t, exec .dn422 s = .next t ∧
      t = { completed s with
            frame := { s.frame with ffam := .f420, pcb := t.frame.pcb, pcr := t.frame.pcr }, draws := t.draws } ∧
      DownsampledFrom s.frame.pcb t.frame.pcb (s.width.toNat / 2) s.height.toNat ∧
      DownsampledFrom s.frame.pcr t.frame.pcr (s.width.toNat / 2) s.height.toNat

/-- Spec R155 to R157, R162: UP420 completes with both chroma planes upsampled and FFAM 1, and changes nothing else
(but the model's counter of free readings, log entry 4). On specified planes every number is exact; on an unspecified
sample each tap may find any byte (R46). -/
def Obligations.Up420Upsamples : Prop :=
  ∀ s : State, Dims s .f420 → FrameFits s .f420 →
    ∃ t, exec .up420 s = .next t ∧
      t = { completed s with
            frame := { s.frame with ffam := .f422, pcb := t.frame.pcb, pcr := t.frame.pcr }, draws := t.draws } ∧
      UpsampledFrom s.frame.pcb t.frame.pcb (s.width.toNat / 2) (s.height.toNat / 2) ∧
      UpsampledFrom s.frame.pcr t.frame.pcr (s.width.toNat / 2) (s.height.toNat / 2)

/-- Spec R180, R181: CONV completes with the source decoded, the chroma resampled as the two families say, the result
on the destination grid in the Frame and encoded in OUT, and changes nothing else (but the model's counter of free
readings, log entry 4). Unspecified bytes pass through a decode and an encode as unspecified, for the encode the model's
reading (log entry 4); in a filter each tap may find any byte for one (R46). -/
def Obligations.ConvConvertsTheFrame : Prop :=
  ∀ (s : State) (fs fd : PixelFormat), Config.capLegal s.cap = true → Dims s (fam fs) → Dims s (fam fd) →
    s.inLen.toNat = fsize fs s.width.toNat s.height.toNat →
    ∃ (t : State) (cb cr : Plane), exec (.conv (.fmt fs) (.fmt fd)) s = .next t ∧
      t = { completed s with
            frame := t.frame, outMem := t.outMem, outLen := t.outLen, draws := t.draws } ∧
      DecodedFrom s.inMem fs s.width.toNat s.height.toNat t.frame.py cb cr ∧
      ResampledFrom (fam fs) (fam fd) cb t.frame.pcb s.width.toNat s.height.toNat ∧
      ResampledFrom (fam fs) (fam fd) cr t.frame.pcr s.width.toNat s.height.toNat ∧
      t.frame.fv = true ∧ t.frame.ffam = fam fd ∧ t.frame.fw = s.width ∧ t.frame.fh = s.height ∧
      EncodedFrom t.outMem fd s.width.toNat s.height.toNat t.frame.py t.frame.pcb t.frame.pcr ∧
      t.outLen.toNat = fsize fd s.width.toNat s.height.toNat

/-- Spec R70: what a command leaves alone, whatever its outcome. Only LAYOUT writes LY_*, only ENC and CONV write OUT
and OUT_LEN, only DEC, DN422, UP420 and CONV write the Frame, the resamplers leave its luma and its other tag fields,
and no command writes IN or a register of the host's. -/
def Obligations.CommandsTouchOnlyTheirOwn : Prop :=
  ∀ (i : Instr) (s t : State), exec i s = .next t →
    t.cap = s.cap ∧ t.inst = s.inst ∧ t.cmdl = s.cmdl ∧ t.haz = s.haz ∧ t.ieDone = s.ieDone ∧ t.ieErr = s.ieErr ∧
    t.width = s.width ∧ t.height = s.height ∧ t.inLen = s.inLen ∧ t.turns = s.turns ∧ t.replies = s.replies ∧
    (∀ k, t.inMem.read k = s.inMem.read k) ∧
    (match i with
      | .layout _ => t.frame = s.frame ∧ t.outLen = s.outLen ∧ ∀ k, t.outMem.read k = s.outMem.read k
      | .dec _ => t.ly = s.ly ∧ t.outLen = s.outLen ∧ ∀ k, t.outMem.read k = s.outMem.read k
      | .enc _ => t.ly = s.ly ∧ t.frame = s.frame
      | .dn422 => t.ly = s.ly ∧ t.outLen = s.outLen ∧ (∀ k, t.outMem.read k = s.outMem.read k) ∧
          t.frame.py = s.frame.py ∧ t.frame.fv = s.frame.fv ∧ t.frame.fw = s.frame.fw ∧ t.frame.fh = s.frame.fh
      | .up420 => t.ly = s.ly ∧ t.outLen = s.outLen ∧ (∀ k, t.outMem.read k = s.outMem.read k) ∧
          t.frame.py = s.frame.py ∧ t.frame.fv = s.frame.fv ∧ t.frame.fw = s.frame.fw ∧ t.frame.fh = s.frame.fh
      | .conv _ _ => t.ly = s.ly)

/-! ## Layouts, codec and conversion as wholes -/

/-- Spec R114: the three accessors of a legal frame name every offset below the frame size exactly once and none above,
and the plane sizes are those of the chroma grid. -/
def Obligations.AccessorsPartitionTheFrame : Prop :=
  ∀ (f : PixelFormat) (cap w h : Nat), LegalDims cap (fam f) w h →
    let a : Fin 3 → Accessor := ![(layout f w h).y, (layout f w h).cb, (layout f w h).cr]
    (∀ o < fsize f w h, ∃! pk : Fin 3 × Nat, pk.2 < (a pk.1).count ∧ (a pk.1).start + pk.2 * (a pk.1).step = o) ∧
    (∀ p : Fin 3, ∀ k < (a p).count, (a p).start + k * (a p).step < fsize f w h) ∧
    (a 0).count = w * h ∧
    (fam f = .f420 → (a 1).count = w / 2 * (h / 2) ∧ (a 2).count = w / 2 * (h / 2)) ∧
    (fam f = .f422 → (a 1).count = w / 2 * h ∧ (a 2).count = w / 2 * h)

/-- Spec R134: decoding an encoded frame gives it back, and encoding a decoded raw frame gives it back, for every format
and legal size, whatever the samples are, unspecified ones among them (that an encode passes those on is the model's
reading, log entry 4). -/
def Obligations.CodecRoundTrips : Prop :=
  ∀ (f : PixelFormat) (cap : Nat) (w h : Dim), LegalDims cap (fam f) w.toNat h.toNat →
    (∀ py pcb pcr : Plane,
      py.length = (layout f w.toNat h.toNat).y.count → pcb.length = (layout f w.toNat h.toNat).cb.count →
      pcr.length = (layout f w.toNat h.toNat).cr.count →
      decodeFrame (encodePlanes py pcb pcr f w.toNat h.toNat) f w h = ⟨true, fam f, w, h, py, pcb, pcr⟩) ∧
    (∀ raw : Memory, raw.wf = true → (∀ k, fsize f w.toNat h.toNat ≤ k → raw.read k = none) →
      encodePlanes (decodeFrame raw f w h).py (decodeFrame raw f w h).pcb (decodeFrame raw f w h).pcr f
        w.toNat h.toNat = raw)

/-- Spec R182: a CONV that completes leaves the Frame, OUT, OUT_LEN and W16 exactly as the command sequence does, each
command issued by the host and followed by the engine's turn; and where CONV faults the sequence faults too. Where the
filters read unspecified samples, both runs find the same free bytes only because both start at the same count of free
readings, a form of the model's (log entry 4). -/
def Obligations.ConvEqualsTheSequence : Prop :=
  ∀ (s t : State) (fa fb : Tag), fa.wellFormed = true → fb.wellFormed = true → s.phase = .idle → s.err = none →
    runTurns s (commandTurns [.conv fa fb]) = .next t →
    ∃ u, runTurns s (commandTurns (convSequence fa fb)) = .next u ∧
      (t.err = none → u.err = none ∧ u.frame = t.frame ∧ u.outMem = t.outMem ∧ u.outLen = t.outLen ∧ u.w16 = t.w16) ∧
      (t.err ≠ none → u.err ≠ none)

/-- Spec R184: conversion within a family moves bytes and changes no sample; converting its output back gives the same
planes and the input frame, byte for byte, an unspecified byte as an unspecified one (for the encode the model's reading, log
entry 4); and `CONV f, f` copies. `u` is the engine after the host has put OUT into IN. -/
def Obligations.SameFamilyConversionIsLossless : Prop :=
  ∀ (s t u v : State) (fs fd : PixelFormat), fam fs = fam fd → Dims s (fam fs) →
    s.inLen.toNat = fsize fs s.width.toNat s.height.toNat → Config.capLegal s.cap = true →
    exec (.conv (.fmt fs) (.fmt fd)) s = .next t →
    u = { t with inMem := t.outMem, inLen := t.outLen } →
    exec (.conv (.fmt fd) (.fmt fs)) u = .next v →
    DecodedFrom s.inMem fs s.width.toNat s.height.toNat t.frame.py t.frame.pcb t.frame.pcr ∧
    EncodedFrom t.outMem fd s.width.toNat s.height.toNat t.frame.py t.frame.pcb t.frame.pcr ∧
    v.done = true ∧ v.outLen = s.inLen ∧
    v.frame.py = t.frame.py ∧ v.frame.pcb = t.frame.pcb ∧ v.frame.pcr = t.frame.pcr ∧
    (∀ k < fsize fs s.width.toNat s.height.toNat, v.outMem.read k = s.inMem.read k) ∧
    (fs = fd → ∀ k < fsize fs s.width.toNat s.height.toNat, t.outMem.read k = s.inMem.read k)

/-- Spec R183: the result of CONV depends on the raw frame, WIDTH, HEIGHT and IN_LEN only (and on the capacity and on
which free readings are next, log entry 4): two states that agree there get the same OUT, OUT_LEN and Frame, whatever they held. -/
def Obligations.ConvIgnoresTheOldFrame : Prop :=
  ∀ (s s' t t' : State) (fs fd : PixelFormat), s.cap = s'.cap → s.width = s'.width → s.height = s'.height →
    s.inLen = s'.inLen → s.inst = s'.inst → s.draws = s'.draws →
    (∀ k < fsize fs s.width.toNat s.height.toNat, s.inMem.read k = s'.inMem.read k) →
    exec (.conv (.fmt fs) (.fmt fd)) s = .next t → exec (.conv (.fmt fs) (.fmt fd)) s' = .next t' →
    firstFault (.conv (.fmt fs) (.fmt fd)) s = none →
    t.outMem = t'.outMem ∧ t.outLen = t'.outLen ∧ t.frame = t'.frame

/-! ## The filters -/

/-- Spec R163: a plane of one constant byte stays constant under both filters, for every width and height. -/
def Obligations.ConstantChromaStays : Prop :=
  ∀ (c : Byte) (cw rows inst n : Nat), 1 ≤ rows →
    down (List.replicate (cw * rows) (some c)) cw rows inst n = List.replicate (cw * (rows / 2)) (some c) ∧
    up (List.replicate (cw * rows) (some c)) cw rows inst n = List.replicate (cw * (2 * rows)) (some c)

/-- Spec R159: the ranges of the sums and of the shifted sums; they fit 19 and 18 signed bits; both ends of
both ranges are reached, by specified samples, so the clamp is needed on both sides. -/
def Obligations.AccumulatorsStayInRange : Prop :=
  (∀ (x : Nat → Nat → Byte) (cw rows i j : Nat),
    (-29324 ≤ downAcc x cw rows i j ∧ downAcc x cw rows i j ≤ 160396) ∧
    (-58 ≤ asr (downAcc x cw rows i j) 9 ∧ asr (downAcc x cw rows i j) 9 ≤ 313) ∧
    (-12112 ≤ upAccEven x cw rows i j ∧ upAccEven x cw rows i j ≤ 77648) ∧
    (-12112 ≤ upAccOdd x cw rows i j ∧ upAccOdd x cw rows i j ≤ 77648) ∧
    (-48 ≤ asr (upAccEven x cw rows i j) 8 ∧ asr (upAccEven x cw rows i j) 8 ≤ 303) ∧
    (-48 ≤ asr (upAccOdd x cw rows i j) 8 ∧ asr (upAccOdd x cw rows i j) 8 ≤ 303)) ∧
  (∃ x : Nat → Byte, downAcc (fun _ => x) 1 16 0 6 = 160396 ∧ asr (downAcc (fun _ => x) 1 16 0 6) 9 = 313) ∧
  (∃ x : Nat → Byte, downAcc (fun _ => x) 1 16 0 6 = -29324 ∧ asr (downAcc (fun _ => x) 1 16 0 6) 9 = -58) ∧
  (∃ x : Nat → Byte, upAccOdd (fun _ => x) 1 8 0 3 = 77648 ∧ asr (upAccOdd (fun _ => x) 1 8 0 3) 8 = 303) ∧
  (∃ x : Nat → Byte, upAccOdd (fun _ => x) 1 8 0 3 = -12112 ∧ asr (upAccOdd (fun _ => x) 1 8 0 3) 8 = -48) ∧
  (-262144 ≤ (-29324 : Int) ∧ (160396 : Int) ≤ 262143 ∧ -131072 ≤ (-12112 : Int) ∧ (77648 : Int) ≤ 131071)

/-- Spec R158: after the clamp, a shift that rounds toward minus infinity and one that rounds toward zero agree. -/
def Obligations.ClampHidesTheRounding : Prop :=
  ∀ (a : Int) (n : Nat), clip255 (asr a n) = clip255 (Int.tdiv a (2 ^ n))

/-- Spec R164: in every column of specified samples the downsampler's sum is the canonical one with row `j+5` in the place of row `j+6`, so
the two differ whenever those rows do; where `j + 6` is past the last row they agree; away from the edges the eleven
weights are 5, 11, -21, -37, 70, 228, 228, 70, -37, -21, 16. -/
def Obligations.SixthTapRepeatsTheFifth : Prop :=
  ∀ (x : Nat → Byte) (cw rows i j : Nat), i < cw → j < rows →
    let y : Nat → Int := fun r => ((x (r * cw + i)).toNat : Int)
    downAcc (fun _ => x) cw rows i j =
      canonicalDownSum y rows j - 5 * y (min (j + 6) (rows - 1)) + 5 * y (min (j + 5) (rows - 1)) ∧
    (j + 6 ≤ rows - 1 → y (j + 5) ≠ y (j + 6) → downAcc (fun _ => x) cw rows i j ≠ canonicalDownSum y rows j) ∧
    (rows ≤ j + 6 → downAcc (fun _ => x) cw rows i j = canonicalDownSum y rows j) ∧
    (5 ≤ j → j + 6 ≤ rows →
      downAcc (fun _ => x) cw rows i j =
        5 * y (j - 5) + 11 * y (j - 4) - 21 * y (j - 3) - 37 * y (j - 2) + 70 * y (j - 1) + 228 * y j
          + 228 * y (j + 1) + 70 * y (j + 2) - 37 * y (j + 3) - 21 * y (j + 4) + 16 * y (j + 5) + 256)

/-- Spec R157 ("mirrored taps"): the odd phase of a plane is the even phase of the plane turned upside down. -/
def Obligations.PhasesMirrorEachOther : Prop :=
  ∀ (x : Nat → Nat → Byte) (cw rows i j : Nat), i < cw → j < rows →
    upAccOdd x cw rows i j =
      upAccEven (fun n k => x n ((rows - 1 - k / cw) * cw + k % cw)) cw rows i (rows - 1 - j)

/-- Spec R150, R165: an output sample of either filter depends on the input samples of its own column only. -/
def Obligations.ColumnsAreIndependent : Prop :=
  ∀ (x x' : Nat → Nat → Byte) (cw rows i j : Nat), (∀ n : Nat, ∀ r < rows, x n (r * cw + i) = x' n (r * cw + i)) →
    (j < rows → downSample x cw rows i j = downSample x' cw rows i j) ∧
    (j < 2 * rows → upSample x cw rows i j = upSample x' cw rows i j)

/-! ## The host port -/

/-- Spec R31: a host write to CMD latches the whole word and clears DONE when idle with no fault latched, and is
discarded with HAZ otherwise; CMD reads 0. -/
def Obligations.CmdWriteIssuesOrIsDiscarded : Prop :=
  ∀ (s : State) (rest : List Turn) (v : Word),
    (s.phase = .idle → s.err = none →
      step { s with turns := .host (.write .reg 0x00 4 v) :: rest } =
        .next { s with turns := rest, cmdl := v, phase := .busy, done := false }) ∧
    (¬ (s.phase = .idle ∧ s.err = none) →
      step { s with turns := .host (.write .reg 0x00 4 v) :: rest } = .next { s with turns := rest, haz := true }) ∧
    s.regRead 0x00 = 0#32

/-- Spec R32: the fields of STATUS as read, its reserved bits 0; a write clears DONE, W16, HAZ where bits 1, 2, 3 are
1, in every phase, and nothing else. -/
def Obligations.StatusReadsAndClears : Prop :=
  ∀ (s : State) (rest : List Turn) (v : Word),
    ((s.regRead 0x04).getLsbD 0 = true ↔ s.phase = .busy) ∧ (s.regRead 0x04).getLsbD 1 = s.done ∧
    (s.regRead 0x04).getLsbD 2 = s.w16 ∧ (s.regRead 0x04).getLsbD 3 = s.haz ∧
    (s.regRead 0x04).extractLsb' 4 4 = 0#4 ∧ (s.regRead 0x04).extractLsb' 12 20 = 0#20 ∧
    (s.regRead 0x04).extractLsb' 8 4 = s.errCode ∧ (s.errCode = 0#4 ↔ s.err = none) ∧
    step { s with turns := .host (.write .reg 0x04 4 v) :: rest } =
      .next { s with
        turns := rest
        done := if v.getLsbD 1 then false else s.done
        w16 := if v.getLsbD 2 then false else s.w16
        haz := if v.getLsbD 3 then false else s.haz }

/-- Spec R33: a write to CTRL with bit 31 clear stores the two enables in every phase; with bit 31 set it resets and
does nothing else; CTRL reads the enables, its other bits 0; each enable lets its condition drive the interrupt line. -/
def Obligations.CtrlStoresEnablesOrResets : Prop :=
  ∀ (s : State) (rest : List Turn) (v : Word),
    (v.getLsbD 31 = false →
      step { s with turns := .host (.write .reg 0x08 4 v) :: rest } =
        .next { s with turns := rest, ieDone := v.getLsbD 0, ieErr := v.getLsbD 1 }) ∧
    (v.getLsbD 31 = true →
      step { s with turns := .host (.write .reg 0x08 4 v) :: rest } =
        .next { s with turns := rest }.resetEngine) ∧
    (s.regRead 0x08).getLsbD 0 = s.ieDone ∧ (s.regRead 0x08).getLsbD 1 = s.ieErr ∧
    (s.regRead 0x08).extractLsb' 2 30 = 0#30 ∧
    (s.irq = true ↔ ((s.regRead 0x08).getLsbD 0 = true ∧ (s.regRead 0x04).getLsbD 1 = true) ∨
      ((s.regRead 0x08).getLsbD 1 = true ∧ (s.regRead 0x04).extractLsb' 8 4 ≠ 0#4))

/-- Spec R34, R35, R36: WIDTH and HEIGHT keep bits 15:0 of a word written while idle and read them with zeros above;
IN_LEN keeps all 32; while busy the write is discarded with HAZ; the engine never writes one of the three. -/
def Obligations.DimensionAndLengthRegisters : Prop :=
  ∀ (s : State) (rest : List Turn) (v : Word),
    (s.phase = .idle →
      step { s with turns := .host (.write .reg 0x0C 4 v) :: rest } =
        .next { s with turns := rest, width := v.extractLsb' 0 16 } ∧
      step { s with turns := .host (.write .reg 0x10 4 v) :: rest } =
        .next { s with turns := rest, height := v.extractLsb' 0 16 } ∧
      step { s with turns := .host (.write .reg 0x14 4 v) :: rest } = .next { s with turns := rest, inLen := v }) ∧
    (s.phase = .busy →
      step { s with turns := .host (.write .reg 0x0C 4 v) :: rest } = .next { s with turns := rest, haz := true } ∧
      step { s with turns := .host (.write .reg 0x10 4 v) :: rest } = .next { s with turns := rest, haz := true } ∧
      step { s with turns := .host (.write .reg 0x14 4 v) :: rest } = .next { s with turns := rest, haz := true }) ∧
    (s.regRead 0x0C).toNat = s.width.toNat ∧ (s.regRead 0x10).toNat = s.height.toNat ∧ s.regRead 0x14 = s.inLen ∧
    (∀ t, runWord v s = .next t → t.width = s.width ∧ t.height = s.height ∧ t.inLen = s.inLen)

/-- Spec R42: a write to a read-only register or above 0x50 changes nothing, HAZ included; a read above 0x50 gives 0. -/
def Obligations.ReadOnlyWritesAreIgnored : Prop :=
  ∀ (s : State) (rest : List Turn) (off : Nat) (v : Word), off % 4 = 0 → 0x18 ≤ off →
    step { s with turns := .host (.write .reg off 4 v) :: rest } = .next { s with turns := rest } ∧
    (0x50 < off →
      step { s with turns := .host (.read .reg off 4) :: rest } =
        .next { s with turns := rest, replies := .reg off 0#32 :: s.replies })

/-- Spec R37 to R41, R66: what the read-only registers read as, by offset; FRAME and FRAME_DIM read 0 fields without a
Frame. -/
def Obligations.ReadOnlyRegistersRead : Prop :=
  ∀ s : State,
    s.regRead 0x18 = s.outLen ∧ s.regRead 0x1C = s.errinfo ∧
    (s.regRead 0x20).getLsbD 0 = s.frame.fv ∧
    ((s.regRead 0x20).getLsbD 1 = true ↔ s.frame.fv = true ∧ s.frame.ffam = .f422) ∧
    (s.regRead 0x20).extractLsb' 2 30 = 0#30 ∧
    (s.frame.fv = true → (s.regRead 0x24).extractLsb' 0 16 = s.frame.fw ∧
      (s.regRead 0x24).extractLsb' 16 16 = s.frame.fh) ∧
    (s.frame.fv = false → s.regRead 0x24 = 0#32) ∧
    s.regRead 0x28 = s.ly.fsize ∧ (s.regRead 0x2C).getLsbD 0 = s.ly.packed ∧
    (s.regRead 0x2C).extractLsb' 1 31 = 0#31 ∧
    s.regRead 0x30 = s.ly.y.start ∧ s.regRead 0x34 = s.ly.y.step ∧ s.regRead 0x38 = s.ly.y.count ∧
    s.regRead 0x3C = s.ly.cb.start ∧ s.regRead 0x40 = s.ly.cb.step ∧ s.regRead 0x44 = s.ly.cb.count ∧
    s.regRead 0x48 = s.ly.cr.start ∧ s.regRead 0x4C = s.ly.cr.step ∧ s.regRead 0x50 = s.ly.cr.count

/-- Spec R62: a REG access that is not 4 bytes wide at a multiple of 4, and a buffer access that is not one byte below
CAP, is refused; every other host access is a step. -/
def Obligations.MisshapenAccessesAreRefused : Prop :=
  ∀ (s : State) (sp : Space) (k n : Nat) (v : Word),
    let shaped : Prop := match sp with
      | .reg => n = 4 ∧ k % 4 = 0
      | .inBuf => n = 1 ∧ k < s.cap
      | .outBuf => n = 1 ∧ k < s.cap
    (shaped → (∃ t, hostAccess (.read sp k n) s = .next t) ∧ ∃ t, hostAccess (.write sp k n v) s = .next t) ∧
    (¬ shaped → (∃ r, hostAccess (.read sp k n) s = .refused r) ∧ ∃ r, hostAccess (.write sp k n v) s = .refused r)

/-- Spec R63, R66 to R68: a host read replies with what it reads and changes nothing else (but the model's counter of
free readings, log entry 4, and that not for a register): REG the register at its offset, IN and OUT the byte there
where the host has a claim to it. The last clause is the step of a register read, whichever register it is. -/
def Obligations.ReadsHaveNoSideEffect : Prop :=
  (∀ (s t : State) (sp : Space) (k n : Nat), hostAccess (.read sp k n) s = .next t →
    t = { s with replies := t.replies, draws := t.draws } ∧
    ∃ r, t.replies = r :: s.replies ∧
      (match sp with
        | .reg => r = .reg k (s.regRead k) ∧ t.draws = s.draws
        | .inBuf => ∃ b, r = .inByte k b ∧ (s.phase = .idle → ∀ x, s.inMem.read k = some x → b = x)
        | .outBuf => ∃ b, r = .outByte k b ∧
            (s.phase = .idle → k < s.outLen.toNat → ∀ x, s.outMem.read k = some x → b = x))) ∧
  (∀ (s : State) (rest : List Turn) (off : Nat), off % 4 = 0 →
    step { s with turns := .host (.read .reg off 4) :: rest } =
      .next { s with turns := rest, replies := .reg off (s.regRead off) :: s.replies })

/-- Spec R67: a write to IN while idle sets that byte and leaves every other byte, while busy it is discarded with HAZ;
a read while idle returns a specified byte, and otherwise some byte; no command writes IN or IN_LEN. -/
def Obligations.InBufferAccess : Prop :=
  (∀ (s : State) (rest : List Turn) (k : Nat) (v : Word), k < s.cap →
    (s.phase = .idle →
      ∃ t, step { s with turns := .host (.write .inBuf k 1 v) :: rest } = .next t ∧
        t = { s with turns := rest, inMem := t.inMem } ∧ t.inMem.read k = some (v.extractLsb' 0 8) ∧
        ∀ j, j ≠ k → t.inMem.read j = s.inMem.read j) ∧
    (s.phase = .busy →
      step { s with turns := .host (.write .inBuf k 1 v) :: rest } = .next { s with turns := rest, haz := true }) ∧
    (∃ b, ∃ t, step { s with turns := .host (.read .inBuf k 1) :: rest } = .next t ∧
      t = { s with turns := rest, replies := .inByte k b :: s.replies, draws := t.draws } ∧
      (s.phase = .idle → ∀ x, s.inMem.read k = some x → b = x))) ∧
  (∀ (i : Instr) (s t : State), exec i s = .next t → t.inMem = s.inMem ∧ t.inLen = s.inLen)

/-- Spec R68: a read of OUT while idle and below OUT_LEN returns the byte there, and otherwise some byte; a write to
OUT is ignored, without HAZ. -/
def Obligations.OutBufferAccess : Prop :=
  ∀ (s : State) (rest : List Turn) (k : Nat) (v : Word), k < s.cap →
    (∃ b, ∃ t, step { s with turns := .host (.read .outBuf k 1) :: rest } = .next t ∧
      t = { s with turns := rest, replies := .outByte k b :: s.replies, draws := t.draws } ∧
      (s.phase = .idle → k < s.outLen.toNat → ∀ x, s.outMem.read k = some x → b = x)) ∧
    step { s with turns := .host (.write .outBuf k 1 v) :: rest } = .next { s with turns := rest }

/-- Spec R43: the interrupt line. -/
def Obligations.InterruptLine : Prop :=
  ∀ s : State, s.irq = true ↔ (s.ieDone = true ∧ s.done = true) ∨ (s.ieErr = true ∧ s.err ≠ none)

/-- Spec R66, R69, R73: while a command is latched, no turn but the engine's and a reset changes the command word, the
dimensions, IN_LEN, IN, or anything that only the engine writes; DONE and W16 can only be cleared, and the engine stays
busy. -/
def Obligations.BusyEngineIsUndisturbed : Prop :=
  ∀ s t : State, s.phase = .busy → step s = .next t → ¬ EngineTurn s → ¬ ResetTurn s →
    t.phase = .busy ∧ t.cmdl = s.cmdl ∧ t.width = s.width ∧ t.height = s.height ∧ t.inLen = s.inLen ∧
    t.inMem = s.inMem ∧ t.outMem = s.outMem ∧ t.outLen = s.outLen ∧ t.frame = s.frame ∧ t.ly = s.ly ∧
    t.err = s.err ∧ t.errinfo = s.errinfo ∧ (t.done = true → s.done = true) ∧ (t.w16 = true → s.w16 = true)

/-- Spec R116: W16 once set stays through every step but a W1C write to it and a reset. -/
def Obligations.WarningIsSticky : Prop :=
  ∀ s t : State, s.w16 = true → step s = .next t → ¬ ResetTurn s → ¬ StatusClearTurn s 2 → t.w16 = true

/-! ## Reset -/

/-- Spec R45: the reset state, and the state after a reset of any state, hold the values of the table. (What CMDL, the
counters and the schedule hold there is no rule of the spec and is not stated.) -/
def Obligations.ResetLeavesTheSpecValues : Prop :=
  ResetValues State.reset ∧ ∀ s : State, ResetValues s.resetEngine

/-- Spec R220, R221: the reset input and a write to CTRL with bit 31 set have the same effect in every phase: the reset
values, the command in progress abandoned. -/
def Obligations.SoftResetEqualsHardReset : Prop :=
  ∀ (s : State) (rest : List Turn) (v : Word), v.getLsbD 31 = true →
    step { s with turns := .host (.write .reg 0x08 4 v) :: rest } = step { s with turns := .hardReset :: rest } ∧
    ∃ t, step { s with turns := .hardReset :: rest } = .next t ∧ ResetValues t ∧ t.turns = rest ∧ t.cap = s.cap

/-! ## Invariants -/

/-- Spec R28, R29: both buffers stay in canonical form with nothing specified at or above CAP. -/
def Obligations.BuffersStaySound : Prop :=
  ∀ s t : State, BuffersSound s → step s = .next t → BuffersSound t

/-- Spec R29, R37, R68: OUT_LEN stays within CAP, and no byte of OUT at or above OUT_LEN is specified. -/
def Obligations.OutputStaysSound : Prop :=
  ∀ s t : State, Config.capLegal s.cap = true → OutputSound s → step s = .next t → OutputSound t

/-- Spec R31, R32, R38, R203: the flags and the fault latch stay as LatchSound says. -/
def Obligations.LatchStaysSound : Prop :=
  ∀ s t : State, LatchSound s → step s = .next t → LatchSound t

/-- Spec R21, R22: a valid Frame keeps legal dimensions and planes of exactly the lengths the tag says. -/
def Obligations.FrameStaysSound : Prop :=
  ∀ s t : State, FrameSound s → step s = .next t → FrameSound t

/-- Spec R6: no step changes the capacity, nor the number of the engine (the model's own field, log entry 8). -/
def Obligations.CapacityIsFixed : Prop :=
  ∀ s t : State, step s = .next t → t.cap = s.cap ∧ t.inst = s.inst

/-- The reset state meets the four invariants and its capacity is legal. (That number is the model's choice, log
entry 1; the invariants hold at reset for every legal capacity.) -/
def Obligations.ResetMeetsTheInvariants : Prop :=
  (∀ cap, BuffersSound (State.resetWith cap) ∧ OutputSound (State.resetWith cap) ∧ LatchSound (State.resetWith cap) ∧
    FrameSound (State.resetWith cap)) ∧
  State.reset = State.resetWith State.reset.cap ∧ Config.capLegal State.reset.cap = true

/-! ## The end of a command, and several engines -/

/-- Spec R226: a latched command ends at the engine's turn however often the host polls STATUS before it, and each poll
reads BUSY = 1. -/
def Obligations.LatchedCommandEnds : Prop :=
  ∀ (s : State) (n : Nat), s.phase = .busy →
    ∃ t, runTurns s (List.replicate n (.host (.read .reg 0x04 4)) ++ [.engine]) = .next t ∧ t.phase = .idle ∧
      t.replies = List.replicate n (.reg 0x04 (s.regRead 0x04)) ++ s.replies ∧ (s.regRead 0x04).getLsbD 0 = true

/-- Spec R211: the step of an instance is the engine's own step, made in its place; it changes no other instance; and
every instance starts with the reset values. (That each carries its number and the capacity of its place is the model's
form, log entry 8.) -/
def Obligations.InstancesShareNothing : Prop :=
  (∀ (chip : Chip) (k : Nat) (s t : State), chip[k]? = some s → step s = .next t →
    chipStep chip k = .next (chip.set k t)) ∧
  (∀ (chip chip' : Chip) (k j : Nat), chipStep chip k = .next chip' → j ≠ k → chip'[j]? = chip[j]?) ∧
  (∀ caps : List Nat, (chipReset caps).length = caps.length ∧
    ∀ (k : Nat) (s : State), (chipReset caps)[k]? = some s → ResetValues s ∧ caps[k]? = some s.cap ∧ s.inst = k)
end

