-- ==== Sys2Proof/Laws/State.lean ====
section
/-! SUPPORT. One lemma per field of State per named update, each true by rfl, so that no proof unfolds a record
update. -/

namespace Sys2Proof.Machine

open Sys2Proof

section issueFields

variable (s : State) (v : Word)

@[simp] theorem State.issue_cap : (s.issue v).cap = s.cap := rfl
@[simp] theorem State.issue_inst : (s.issue v).inst = s.inst := rfl
@[simp] theorem State.issue_phase : (s.issue v).phase = .busy := rfl
@[simp] theorem State.issue_cmdl : (s.issue v).cmdl = v := rfl
@[simp] theorem State.issue_done : (s.issue v).done = false := rfl
@[simp] theorem State.issue_w16 : (s.issue v).w16 = s.w16 := rfl
@[simp] theorem State.issue_haz : (s.issue v).haz = s.haz := rfl
@[simp] theorem State.issue_err : (s.issue v).err = s.err := rfl
@[simp] theorem State.issue_ieDone : (s.issue v).ieDone = s.ieDone := rfl
@[simp] theorem State.issue_ieErr : (s.issue v).ieErr = s.ieErr := rfl
@[simp] theorem State.issue_width : (s.issue v).width = s.width := rfl
@[simp] theorem State.issue_height : (s.issue v).height = s.height := rfl
@[simp] theorem State.issue_inLen : (s.issue v).inLen = s.inLen := rfl
@[simp] theorem State.issue_outLen : (s.issue v).outLen = s.outLen := rfl
@[simp] theorem State.issue_errinfo : (s.issue v).errinfo = s.errinfo := rfl
@[simp] theorem State.issue_frame : (s.issue v).frame = s.frame := rfl
@[simp] theorem State.issue_ly : (s.issue v).ly = s.ly := rfl
@[simp] theorem State.issue_inMem : (s.issue v).inMem = s.inMem := rfl
@[simp] theorem State.issue_outMem : (s.issue v).outMem = s.outMem := rfl
@[simp] theorem State.issue_draws : (s.issue v).draws = s.draws := rfl
@[simp] theorem State.issue_turns : (s.issue v).turns = s.turns := rfl
@[simp] theorem State.issue_replies : (s.issue v).replies = s.replies := rfl

end issueFields

section presentCommandFields

variable (s : State) (v : Word)

@[simp] theorem State.presentCommand_cap : (s.presentCommand v).cap = s.cap := rfl
@[simp] theorem State.presentCommand_inst : (s.presentCommand v).inst = s.inst := rfl
@[simp] theorem State.presentCommand_phase : (s.presentCommand v).phase = .busy := rfl
@[simp] theorem State.presentCommand_cmdl : (s.presentCommand v).cmdl = v := rfl
@[simp] theorem State.presentCommand_done : (s.presentCommand v).done = false := rfl
@[simp] theorem State.presentCommand_w16 : (s.presentCommand v).w16 = s.w16 := rfl
@[simp] theorem State.presentCommand_haz : (s.presentCommand v).haz = s.haz := rfl
@[simp] theorem State.presentCommand_err : (s.presentCommand v).err = s.err := rfl
@[simp] theorem State.presentCommand_ieDone : (s.presentCommand v).ieDone = s.ieDone := rfl
@[simp] theorem State.presentCommand_ieErr : (s.presentCommand v).ieErr = s.ieErr := rfl
@[simp] theorem State.presentCommand_width : (s.presentCommand v).width = s.width := rfl
@[simp] theorem State.presentCommand_height : (s.presentCommand v).height = s.height := rfl
@[simp] theorem State.presentCommand_inLen : (s.presentCommand v).inLen = s.inLen := rfl
@[simp] theorem State.presentCommand_outLen : (s.presentCommand v).outLen = s.outLen := rfl
@[simp] theorem State.presentCommand_errinfo : (s.presentCommand v).errinfo = s.errinfo := rfl
@[simp] theorem State.presentCommand_frame : (s.presentCommand v).frame = s.frame := rfl
@[simp] theorem State.presentCommand_ly : (s.presentCommand v).ly = s.ly := rfl
@[simp] theorem State.presentCommand_inMem : (s.presentCommand v).inMem = s.inMem := rfl
@[simp] theorem State.presentCommand_outMem : (s.presentCommand v).outMem = s.outMem := rfl
@[simp] theorem State.presentCommand_draws : (s.presentCommand v).draws = s.draws := rfl
@[simp] theorem State.presentCommand_turns : (s.presentCommand v).turns = .engine :: s.turns := rfl
@[simp] theorem State.presentCommand_replies : (s.presentCommand v).replies = s.replies := rfl

end presentCommandFields

section discardWriteFields

variable (s : State)

@[simp] theorem State.discardWrite_cap : (s.discardWrite).cap = s.cap := rfl
@[simp] theorem State.discardWrite_inst : (s.discardWrite).inst = s.inst := rfl
@[simp] theorem State.discardWrite_phase : (s.discardWrite).phase = s.phase := rfl
@[simp] theorem State.discardWrite_cmdl : (s.discardWrite).cmdl = s.cmdl := rfl
@[simp] theorem State.discardWrite_done : (s.discardWrite).done = s.done := rfl
@[simp] theorem State.discardWrite_w16 : (s.discardWrite).w16 = s.w16 := rfl
@[simp] theorem State.discardWrite_haz : (s.discardWrite).haz = true := rfl
@[simp] theorem State.discardWrite_err : (s.discardWrite).err = s.err := rfl
@[simp] theorem State.discardWrite_ieDone : (s.discardWrite).ieDone = s.ieDone := rfl
@[simp] theorem State.discardWrite_ieErr : (s.discardWrite).ieErr = s.ieErr := rfl
@[simp] theorem State.discardWrite_width : (s.discardWrite).width = s.width := rfl
@[simp] theorem State.discardWrite_height : (s.discardWrite).height = s.height := rfl
@[simp] theorem State.discardWrite_inLen : (s.discardWrite).inLen = s.inLen := rfl
@[simp] theorem State.discardWrite_outLen : (s.discardWrite).outLen = s.outLen := rfl
@[simp] theorem State.discardWrite_errinfo : (s.discardWrite).errinfo = s.errinfo := rfl
@[simp] theorem State.discardWrite_frame : (s.discardWrite).frame = s.frame := rfl
@[simp] theorem State.discardWrite_ly : (s.discardWrite).ly = s.ly := rfl
@[simp] theorem State.discardWrite_inMem : (s.discardWrite).inMem = s.inMem := rfl
@[simp] theorem State.discardWrite_outMem : (s.discardWrite).outMem = s.outMem := rfl
@[simp] theorem State.discardWrite_draws : (s.discardWrite).draws = s.draws := rfl
@[simp] theorem State.discardWrite_turns : (s.discardWrite).turns = s.turns := rfl
@[simp] theorem State.discardWrite_replies : (s.discardWrite).replies = s.replies := rfl

end discardWriteFields

section completeFields

variable (s : State)

@[simp] theorem State.complete_cap : (s.complete).cap = s.cap := rfl
@[simp] theorem State.complete_inst : (s.complete).inst = s.inst := rfl
@[simp] theorem State.complete_phase : (s.complete).phase = .idle := rfl
@[simp] theorem State.complete_cmdl : (s.complete).cmdl = s.cmdl := rfl
@[simp] theorem State.complete_done : (s.complete).done = true := rfl
@[simp] theorem State.complete_w16 : (s.complete).w16 = s.w16 := rfl
@[simp] theorem State.complete_haz : (s.complete).haz = s.haz := rfl
@[simp] theorem State.complete_err : (s.complete).err = s.err := rfl
@[simp] theorem State.complete_ieDone : (s.complete).ieDone = s.ieDone := rfl
@[simp] theorem State.complete_ieErr : (s.complete).ieErr = s.ieErr := rfl
@[simp] theorem State.complete_width : (s.complete).width = s.width := rfl
@[simp] theorem State.complete_height : (s.complete).height = s.height := rfl
@[simp] theorem State.complete_inLen : (s.complete).inLen = s.inLen := rfl
@[simp] theorem State.complete_outLen : (s.complete).outLen = s.outLen := rfl
@[simp] theorem State.complete_errinfo : (s.complete).errinfo = s.errinfo := rfl
@[simp] theorem State.complete_frame : (s.complete).frame = s.frame := rfl
@[simp] theorem State.complete_ly : (s.complete).ly = s.ly := rfl
@[simp] theorem State.complete_inMem : (s.complete).inMem = s.inMem := rfl
@[simp] theorem State.complete_outMem : (s.complete).outMem = s.outMem := rfl
@[simp] theorem State.complete_draws : (s.complete).draws = s.draws := rfl
@[simp] theorem State.complete_turns : (s.complete).turns = s.turns := rfl
@[simp] theorem State.complete_replies : (s.complete).replies = s.replies := rfl

end completeFields

section raiseFields

variable (s : State) (k : FaultKind)

@[simp] theorem State.raise_cap : (s.raise k).cap = s.cap := rfl
@[simp] theorem State.raise_inst : (s.raise k).inst = s.inst := rfl
@[simp] theorem State.raise_phase : (s.raise k).phase = .idle := rfl
@[simp] theorem State.raise_cmdl : (s.raise k).cmdl = s.cmdl := rfl
@[simp] theorem State.raise_done : (s.raise k).done = s.done := rfl
@[simp] theorem State.raise_w16 : (s.raise k).w16 = s.w16 := rfl
@[simp] theorem State.raise_haz : (s.raise k).haz = s.haz := rfl
@[simp] theorem State.raise_err : (s.raise k).err = some k := rfl
@[simp] theorem State.raise_ieDone : (s.raise k).ieDone = s.ieDone := rfl
@[simp] theorem State.raise_ieErr : (s.raise k).ieErr = s.ieErr := rfl
@[simp] theorem State.raise_width : (s.raise k).width = s.width := rfl
@[simp] theorem State.raise_height : (s.raise k).height = s.height := rfl
@[simp] theorem State.raise_inLen : (s.raise k).inLen = s.inLen := rfl
@[simp] theorem State.raise_outLen : (s.raise k).outLen = s.outLen := rfl
@[simp] theorem State.raise_errinfo : (s.raise k).errinfo = s.cmdl := rfl
@[simp] theorem State.raise_frame : (s.raise k).frame = s.frame := rfl
@[simp] theorem State.raise_ly : (s.raise k).ly = s.ly := rfl
@[simp] theorem State.raise_inMem : (s.raise k).inMem = s.inMem := rfl
@[simp] theorem State.raise_outMem : (s.raise k).outMem = s.outMem := rfl
@[simp] theorem State.raise_draws : (s.raise k).draws = s.draws := rfl
@[simp] theorem State.raise_turns : (s.raise k).turns = s.turns := rfl
@[simp] theorem State.raise_replies : (s.raise k).replies = s.replies := rfl

end raiseFields

section noteW16Fields

variable (s : State)

@[simp] theorem State.noteW16_cap : (s.noteW16).cap = s.cap := rfl
@[simp] theorem State.noteW16_inst : (s.noteW16).inst = s.inst := rfl
@[simp] theorem State.noteW16_phase : (s.noteW16).phase = s.phase := rfl
@[simp] theorem State.noteW16_cmdl : (s.noteW16).cmdl = s.cmdl := rfl
@[simp] theorem State.noteW16_done : (s.noteW16).done = s.done := rfl
@[simp] theorem State.noteW16_w16 : (s.noteW16).w16 = (s.w16 || s.notMultipleOf16) := rfl
@[simp] theorem State.noteW16_haz : (s.noteW16).haz = s.haz := rfl
@[simp] theorem State.noteW16_err : (s.noteW16).err = s.err := rfl
@[simp] theorem State.noteW16_ieDone : (s.noteW16).ieDone = s.ieDone := rfl
@[simp] theorem State.noteW16_ieErr : (s.noteW16).ieErr = s.ieErr := rfl
@[simp] theorem State.noteW16_width : (s.noteW16).width = s.width := rfl
@[simp] theorem State.noteW16_height : (s.noteW16).height = s.height := rfl
@[simp] theorem State.noteW16_inLen : (s.noteW16).inLen = s.inLen := rfl
@[simp] theorem State.noteW16_outLen : (s.noteW16).outLen = s.outLen := rfl
@[simp] theorem State.noteW16_errinfo : (s.noteW16).errinfo = s.errinfo := rfl
@[simp] theorem State.noteW16_frame : (s.noteW16).frame = s.frame := rfl
@[simp] theorem State.noteW16_ly : (s.noteW16).ly = s.ly := rfl
@[simp] theorem State.noteW16_inMem : (s.noteW16).inMem = s.inMem := rfl
@[simp] theorem State.noteW16_outMem : (s.noteW16).outMem = s.outMem := rfl
@[simp] theorem State.noteW16_draws : (s.noteW16).draws = s.draws := rfl
@[simp] theorem State.noteW16_turns : (s.noteW16).turns = s.turns := rfl
@[simp] theorem State.noteW16_replies : (s.noteW16).replies = s.replies := rfl

end noteW16Fields

section writeStatusFields

variable (s : State) (v : Word)

@[simp] theorem State.writeStatus_cap : (s.writeStatus v).cap = s.cap := rfl
@[simp] theorem State.writeStatus_inst : (s.writeStatus v).inst = s.inst := rfl
@[simp] theorem State.writeStatus_phase : (s.writeStatus v).phase = s.phase := rfl
@[simp] theorem State.writeStatus_cmdl : (s.writeStatus v).cmdl = s.cmdl := rfl
@[simp] theorem State.writeStatus_done : (s.writeStatus v).done = (s.done && !v.getLsbD 1) := rfl
@[simp] theorem State.writeStatus_w16 : (s.writeStatus v).w16 = (s.w16 && !v.getLsbD 2) := rfl
@[simp] theorem State.writeStatus_haz : (s.writeStatus v).haz = (s.haz && !v.getLsbD 3) := rfl
@[simp] theorem State.writeStatus_err : (s.writeStatus v).err = s.err := rfl
@[simp] theorem State.writeStatus_ieDone : (s.writeStatus v).ieDone = s.ieDone := rfl
@[simp] theorem State.writeStatus_ieErr : (s.writeStatus v).ieErr = s.ieErr := rfl
@[simp] theorem State.writeStatus_width : (s.writeStatus v).width = s.width := rfl
@[simp] theorem State.writeStatus_height : (s.writeStatus v).height = s.height := rfl
@[simp] theorem State.writeStatus_inLen : (s.writeStatus v).inLen = s.inLen := rfl
@[simp] theorem State.writeStatus_outLen : (s.writeStatus v).outLen = s.outLen := rfl
@[simp] theorem State.writeStatus_errinfo : (s.writeStatus v).errinfo = s.errinfo := rfl
@[simp] theorem State.writeStatus_frame : (s.writeStatus v).frame = s.frame := rfl
@[simp] theorem State.writeStatus_ly : (s.writeStatus v).ly = s.ly := rfl
@[simp] theorem State.writeStatus_inMem : (s.writeStatus v).inMem = s.inMem := rfl
@[simp] theorem State.writeStatus_outMem : (s.writeStatus v).outMem = s.outMem := rfl
@[simp] theorem State.writeStatus_draws : (s.writeStatus v).draws = s.draws := rfl
@[simp] theorem State.writeStatus_turns : (s.writeStatus v).turns = s.turns := rfl
@[simp] theorem State.writeStatus_replies : (s.writeStatus v).replies = s.replies := rfl

end writeStatusFields

section storeLayoutFields

variable (s : State) (f : PixelFormat)

@[simp] theorem State.storeLayout_cap : (s.storeLayout f).cap = s.cap := rfl
@[simp] theorem State.storeLayout_inst : (s.storeLayout f).inst = s.inst := rfl
@[simp] theorem State.storeLayout_phase : (s.storeLayout f).phase = s.phase := rfl
@[simp] theorem State.storeLayout_cmdl : (s.storeLayout f).cmdl = s.cmdl := rfl
@[simp] theorem State.storeLayout_done : (s.storeLayout f).done = s.done := rfl
@[simp] theorem State.storeLayout_w16 : (s.storeLayout f).w16 = s.w16 := rfl
@[simp] theorem State.storeLayout_haz : (s.storeLayout f).haz = s.haz := rfl
@[simp] theorem State.storeLayout_err : (s.storeLayout f).err = s.err := rfl
@[simp] theorem State.storeLayout_ieDone : (s.storeLayout f).ieDone = s.ieDone := rfl
@[simp] theorem State.storeLayout_ieErr : (s.storeLayout f).ieErr = s.ieErr := rfl
@[simp] theorem State.storeLayout_width : (s.storeLayout f).width = s.width := rfl
@[simp] theorem State.storeLayout_height : (s.storeLayout f).height = s.height := rfl
@[simp] theorem State.storeLayout_inLen : (s.storeLayout f).inLen = s.inLen := rfl
@[simp] theorem State.storeLayout_outLen : (s.storeLayout f).outLen = s.outLen := rfl
@[simp] theorem State.storeLayout_errinfo : (s.storeLayout f).errinfo = s.errinfo := rfl
@[simp] theorem State.storeLayout_frame : (s.storeLayout f).frame = s.frame := rfl
@[simp] theorem State.storeLayout_ly : (s.storeLayout f).ly = layoutRegs f s.w s.h := rfl
@[simp] theorem State.storeLayout_inMem : (s.storeLayout f).inMem = s.inMem := rfl
@[simp] theorem State.storeLayout_outMem : (s.storeLayout f).outMem = s.outMem := rfl
@[simp] theorem State.storeLayout_draws : (s.storeLayout f).draws = s.draws := rfl
@[simp] theorem State.storeLayout_turns : (s.storeLayout f).turns = s.turns := rfl
@[simp] theorem State.storeLayout_replies : (s.storeLayout f).replies = s.replies := rfl

end storeLayoutFields

section loadFrameFields

variable (s : State) (f : PixelFormat)

@[simp] theorem State.loadFrame_cap : (s.loadFrame f).cap = s.cap := rfl
@[simp] theorem State.loadFrame_inst : (s.loadFrame f).inst = s.inst := rfl
@[simp] theorem State.loadFrame_phase : (s.loadFrame f).phase = s.phase := rfl
@[simp] theorem State.loadFrame_cmdl : (s.loadFrame f).cmdl = s.cmdl := rfl
@[simp] theorem State.loadFrame_done : (s.loadFrame f).done = s.done := rfl
@[simp] theorem State.loadFrame_w16 : (s.loadFrame f).w16 = s.w16 := rfl
@[simp] theorem State.loadFrame_haz : (s.loadFrame f).haz = s.haz := rfl
@[simp] theorem State.loadFrame_err : (s.loadFrame f).err = s.err := rfl
@[simp] theorem State.loadFrame_ieDone : (s.loadFrame f).ieDone = s.ieDone := rfl
@[simp] theorem State.loadFrame_ieErr : (s.loadFrame f).ieErr = s.ieErr := rfl
@[simp] theorem State.loadFrame_width : (s.loadFrame f).width = s.width := rfl
@[simp] theorem State.loadFrame_height : (s.loadFrame f).height = s.height := rfl
@[simp] theorem State.loadFrame_inLen : (s.loadFrame f).inLen = s.inLen := rfl
@[simp] theorem State.loadFrame_outLen : (s.loadFrame f).outLen = s.outLen := rfl
@[simp] theorem State.loadFrame_errinfo : (s.loadFrame f).errinfo = s.errinfo := rfl
@[simp] theorem State.loadFrame_frame : (s.loadFrame f).frame = decodeFrame s.inMem f s.width s.height := rfl
@[simp] theorem State.loadFrame_ly : (s.loadFrame f).ly = s.ly := rfl
@[simp] theorem State.loadFrame_inMem : (s.loadFrame f).inMem = s.inMem := rfl
@[simp] theorem State.loadFrame_outMem : (s.loadFrame f).outMem = s.outMem := rfl
@[simp] theorem State.loadFrame_draws : (s.loadFrame f).draws = s.draws := rfl
@[simp] theorem State.loadFrame_turns : (s.loadFrame f).turns = s.turns := rfl
@[simp] theorem State.loadFrame_replies : (s.loadFrame f).replies = s.replies := rfl

end loadFrameFields

section storeFrameFields

variable (s : State) (f : PixelFormat)

@[simp] theorem State.storeFrame_cap : (s.storeFrame f).cap = s.cap := rfl
@[simp] theorem State.storeFrame_inst : (s.storeFrame f).inst = s.inst := rfl
@[simp] theorem State.storeFrame_phase : (s.storeFrame f).phase = s.phase := rfl
@[simp] theorem State.storeFrame_cmdl : (s.storeFrame f).cmdl = s.cmdl := rfl
@[simp] theorem State.storeFrame_done : (s.storeFrame f).done = s.done := rfl
@[simp] theorem State.storeFrame_w16 : (s.storeFrame f).w16 = s.w16 := rfl
@[simp] theorem State.storeFrame_haz : (s.storeFrame f).haz = s.haz := rfl
@[simp] theorem State.storeFrame_err : (s.storeFrame f).err = s.err := rfl
@[simp] theorem State.storeFrame_ieDone : (s.storeFrame f).ieDone = s.ieDone := rfl
@[simp] theorem State.storeFrame_ieErr : (s.storeFrame f).ieErr = s.ieErr := rfl
@[simp] theorem State.storeFrame_width : (s.storeFrame f).width = s.width := rfl
@[simp] theorem State.storeFrame_height : (s.storeFrame f).height = s.height := rfl
@[simp] theorem State.storeFrame_inLen : (s.storeFrame f).inLen = s.inLen := rfl
@[simp] theorem State.storeFrame_outLen : (s.storeFrame f).outLen = BitVec.ofNat 32 (fsize f s.w s.h) := rfl
@[simp] theorem State.storeFrame_errinfo : (s.storeFrame f).errinfo = s.errinfo := rfl
@[simp] theorem State.storeFrame_frame : (s.storeFrame f).frame = s.frame := rfl
@[simp] theorem State.storeFrame_ly : (s.storeFrame f).ly = s.ly := rfl
@[simp] theorem State.storeFrame_inMem : (s.storeFrame f).inMem = s.inMem := rfl
@[simp] theorem State.storeFrame_outMem : (s.storeFrame f).outMem = encodePlanes s.frame.py s.frame.pcb s.frame.pcr f s.w s.h := rfl
@[simp] theorem State.storeFrame_draws : (s.storeFrame f).draws = s.draws := rfl
@[simp] theorem State.storeFrame_turns : (s.storeFrame f).turns = s.turns := rfl
@[simp] theorem State.storeFrame_replies : (s.storeFrame f).replies = s.replies := rfl

end storeFrameFields

section downFrameFields

variable (s : State)

@[simp] theorem State.downFrame_cap : (s.downFrame).cap = s.cap := rfl
@[simp] theorem State.downFrame_inst : (s.downFrame).inst = s.inst := rfl
@[simp] theorem State.downFrame_phase : (s.downFrame).phase = s.phase := rfl
@[simp] theorem State.downFrame_cmdl : (s.downFrame).cmdl = s.cmdl := rfl
@[simp] theorem State.downFrame_done : (s.downFrame).done = s.done := rfl
@[simp] theorem State.downFrame_w16 : (s.downFrame).w16 = s.w16 := rfl
@[simp] theorem State.downFrame_haz : (s.downFrame).haz = s.haz := rfl
@[simp] theorem State.downFrame_err : (s.downFrame).err = s.err := rfl
@[simp] theorem State.downFrame_ieDone : (s.downFrame).ieDone = s.ieDone := rfl
@[simp] theorem State.downFrame_ieErr : (s.downFrame).ieErr = s.ieErr := rfl
@[simp] theorem State.downFrame_width : (s.downFrame).width = s.width := rfl
@[simp] theorem State.downFrame_height : (s.downFrame).height = s.height := rfl
@[simp] theorem State.downFrame_inLen : (s.downFrame).inLen = s.inLen := rfl
@[simp] theorem State.downFrame_outLen : (s.downFrame).outLen = s.outLen := rfl
@[simp] theorem State.downFrame_errinfo : (s.downFrame).errinfo = s.errinfo := rfl
@[simp] theorem State.downFrame_ly : (s.downFrame).ly = s.ly := rfl
@[simp] theorem State.downFrame_inMem : (s.downFrame).inMem = s.inMem := rfl
@[simp] theorem State.downFrame_outMem : (s.downFrame).outMem = s.outMem := rfl
@[simp] theorem State.downFrame_draws : (s.downFrame).draws = s.draws + 2 := rfl
@[simp] theorem State.downFrame_turns : (s.downFrame).turns = s.turns := rfl
@[simp] theorem State.downFrame_replies : (s.downFrame).replies = s.replies := rfl
@[simp] theorem State.downFrame_fv : (s.downFrame).frame.fv = s.frame.fv := rfl
@[simp] theorem State.downFrame_fw : (s.downFrame).frame.fw = s.frame.fw := rfl
@[simp] theorem State.downFrame_fh : (s.downFrame).frame.fh = s.frame.fh := rfl
@[simp] theorem State.downFrame_py : (s.downFrame).frame.py = s.frame.py := rfl
@[simp] theorem State.downFrame_ffam : (s.downFrame).frame.ffam = .f420 := rfl
@[simp] theorem State.downFrame_pcb : (s.downFrame).frame.pcb = down s.frame.pcb (s.w / 2) s.h s.inst s.draws := rfl
@[simp] theorem State.downFrame_pcr : (s.downFrame).frame.pcr = down s.frame.pcr (s.w / 2) s.h s.inst (s.draws + 1) := rfl

end downFrameFields

section upFrameFields

variable (s : State)

@[simp] theorem State.upFrame_cap : (s.upFrame).cap = s.cap := rfl
@[simp] theorem State.upFrame_inst : (s.upFrame).inst = s.inst := rfl
@[simp] theorem State.upFrame_phase : (s.upFrame).phase = s.phase := rfl
@[simp] theorem State.upFrame_cmdl : (s.upFrame).cmdl = s.cmdl := rfl
@[simp] theorem State.upFrame_done : (s.upFrame).done = s.done := rfl
@[simp] theorem State.upFrame_w16 : (s.upFrame).w16 = s.w16 := rfl
@[simp] theorem State.upFrame_haz : (s.upFrame).haz = s.haz := rfl
@[simp] theorem State.upFrame_err : (s.upFrame).err = s.err := rfl
@[simp] theorem State.upFrame_ieDone : (s.upFrame).ieDone = s.ieDone := rfl
@[simp] theorem State.upFrame_ieErr : (s.upFrame).ieErr = s.ieErr := rfl
@[simp] theorem State.upFrame_width : (s.upFrame).width = s.width := rfl
@[simp] theorem State.upFrame_height : (s.upFrame).height = s.height := rfl
@[simp] theorem State.upFrame_inLen : (s.upFrame).inLen = s.inLen := rfl
@[simp] theorem State.upFrame_outLen : (s.upFrame).outLen = s.outLen := rfl
@[simp] theorem State.upFrame_errinfo : (s.upFrame).errinfo = s.errinfo := rfl
@[simp] theorem State.upFrame_ly : (s.upFrame).ly = s.ly := rfl
@[simp] theorem State.upFrame_inMem : (s.upFrame).inMem = s.inMem := rfl
@[simp] theorem State.upFrame_outMem : (s.upFrame).outMem = s.outMem := rfl
@[simp] theorem State.upFrame_draws : (s.upFrame).draws = s.draws + 2 := rfl
@[simp] theorem State.upFrame_turns : (s.upFrame).turns = s.turns := rfl
@[simp] theorem State.upFrame_replies : (s.upFrame).replies = s.replies := rfl
@[simp] theorem State.upFrame_fv : (s.upFrame).frame.fv = s.frame.fv := rfl
@[simp] theorem State.upFrame_fw : (s.upFrame).frame.fw = s.frame.fw := rfl
@[simp] theorem State.upFrame_fh : (s.upFrame).frame.fh = s.frame.fh := rfl
@[simp] theorem State.upFrame_py : (s.upFrame).frame.py = s.frame.py := rfl
@[simp] theorem State.upFrame_ffam : (s.upFrame).frame.ffam = .f422 := rfl
@[simp] theorem State.upFrame_pcb : (s.upFrame).frame.pcb = up s.frame.pcb (s.w / 2) (s.h / 2) s.inst s.draws := rfl
@[simp] theorem State.upFrame_pcr : (s.upFrame).frame.pcr = up s.frame.pcr (s.w / 2) (s.h / 2) s.inst (s.draws + 1) := rfl

end upFrameFields

section replyFields

variable (s : State) (r : Reply)

@[simp] theorem State.reply_cap : (s.reply r).cap = s.cap := rfl
@[simp] theorem State.reply_inst : (s.reply r).inst = s.inst := rfl
@[simp] theorem State.reply_phase : (s.reply r).phase = s.phase := rfl
@[simp] theorem State.reply_cmdl : (s.reply r).cmdl = s.cmdl := rfl
@[simp] theorem State.reply_done : (s.reply r).done = s.done := rfl
@[simp] theorem State.reply_w16 : (s.reply r).w16 = s.w16 := rfl
@[simp] theorem State.reply_haz : (s.reply r).haz = s.haz := rfl
@[simp] theorem State.reply_err : (s.reply r).err = s.err := rfl
@[simp] theorem State.reply_ieDone : (s.reply r).ieDone = s.ieDone := rfl
@[simp] theorem State.reply_ieErr : (s.reply r).ieErr = s.ieErr := rfl
@[simp] theorem State.reply_width : (s.reply r).width = s.width := rfl
@[simp] theorem State.reply_height : (s.reply r).height = s.height := rfl
@[simp] theorem State.reply_inLen : (s.reply r).inLen = s.inLen := rfl
@[simp] theorem State.reply_outLen : (s.reply r).outLen = s.outLen := rfl
@[simp] theorem State.reply_errinfo : (s.reply r).errinfo = s.errinfo := rfl
@[simp] theorem State.reply_frame : (s.reply r).frame = s.frame := rfl
@[simp] theorem State.reply_ly : (s.reply r).ly = s.ly := rfl
@[simp] theorem State.reply_inMem : (s.reply r).inMem = s.inMem := rfl
@[simp] theorem State.reply_outMem : (s.reply r).outMem = s.outMem := rfl
@[simp] theorem State.reply_draws : (s.reply r).draws = s.draws := rfl
@[simp] theorem State.reply_turns : (s.reply r).turns = s.turns := rfl
@[simp] theorem State.reply_replies : (s.reply r).replies = r :: s.replies := rfl

end replyFields

section resetEngineFields

variable (s : State)

@[simp] theorem State.resetEngine_cap : (s.resetEngine).cap = s.cap := rfl
@[simp] theorem State.resetEngine_inst : (s.resetEngine).inst = s.inst := rfl
@[simp] theorem State.resetEngine_phase : (s.resetEngine).phase = .idle := rfl
@[simp] theorem State.resetEngine_cmdl : (s.resetEngine).cmdl = 0#32 := rfl
@[simp] theorem State.resetEngine_done : (s.resetEngine).done = false := rfl
@[simp] theorem State.resetEngine_w16 : (s.resetEngine).w16 = false := rfl
@[simp] theorem State.resetEngine_haz : (s.resetEngine).haz = false := rfl
@[simp] theorem State.resetEngine_err : (s.resetEngine).err = none := rfl
@[simp] theorem State.resetEngine_ieDone : (s.resetEngine).ieDone = false := rfl
@[simp] theorem State.resetEngine_ieErr : (s.resetEngine).ieErr = false := rfl
@[simp] theorem State.resetEngine_width : (s.resetEngine).width = 0#16 := rfl
@[simp] theorem State.resetEngine_height : (s.resetEngine).height = 0#16 := rfl
@[simp] theorem State.resetEngine_inLen : (s.resetEngine).inLen = 0#32 := rfl
@[simp] theorem State.resetEngine_outLen : (s.resetEngine).outLen = 0#32 := rfl
@[simp] theorem State.resetEngine_errinfo : (s.resetEngine).errinfo = 0#32 := rfl
@[simp] theorem State.resetEngine_frame : (s.resetEngine).frame = Frame.none := rfl
@[simp] theorem State.resetEngine_ly : (s.resetEngine).ly = LayoutRegs.zero := rfl
@[simp] theorem State.resetEngine_inMem : (s.resetEngine).inMem = [] := rfl
@[simp] theorem State.resetEngine_outMem : (s.resetEngine).outMem = [] := rfl
@[simp] theorem State.resetEngine_draws : (s.resetEngine).draws = s.draws := rfl
@[simp] theorem State.resetEngine_turns : (s.resetEngine).turns = s.turns := rfl
@[simp] theorem State.resetEngine_replies : (s.resetEngine).replies = s.replies := rfl

end resetEngineFields

/-! What the dimension, size and frame checks read is what an update leaves alone. -/

@[simp] theorem State.noteW16_w (s : State) : s.noteW16.w = s.w := rfl
@[simp] theorem State.noteW16_h (s : State) : s.noteW16.h = s.h := rfl
@[simp] theorem State.noteW16_notMultipleOf16 (s : State) : s.noteW16.notMultipleOf16 = s.notMultipleOf16 := rfl
@[simp] theorem State.loadFrame_w (s : State) (f : PixelFormat) : (s.loadFrame f).w = s.w := rfl
@[simp] theorem State.loadFrame_h (s : State) (f : PixelFormat) : (s.loadFrame f).h = s.h := rfl
@[simp] theorem State.downFrame_w (s : State) : s.downFrame.w = s.w := rfl
@[simp] theorem State.downFrame_h (s : State) : s.downFrame.h = s.h := rfl
@[simp] theorem State.upFrame_w (s : State) : s.upFrame.w = s.w := rfl
@[simp] theorem State.upFrame_h (s : State) : s.upFrame.h = s.h := rfl
@[simp] theorem State.issue_w (s : State) (v : Word) : (s.issue v).w = s.w := rfl
@[simp] theorem State.issue_h (s : State) (v : Word) : (s.issue v).h = s.h := rfl
@[simp] theorem State.issue_dimsOk (s : State) (v : Word) (F : Family) : (s.issue v).dimsOk F = s.dimsOk F := rfl
@[simp] theorem State.issue_sizeOk (s : State) (v : Word) (f : PixelFormat) : (s.issue v).sizeOk f = s.sizeOk f := rfl
@[simp] theorem State.issue_frameOk (s : State) (v : Word) (F : Family) : (s.issue v).frameOk F = s.frameOk F := rfl

end Sys2Proof.Machine
end

