-- ==== Sys2Proof/Laws/Checked.lean ====
section
/-! SUPPORT. What a command can do: the shared order of checks has four outcomes, and a command always answers a next
state in which the engine is idle. -/

namespace Sys2Proof.Machine

open Sys2Proof

/-- Everything `runChecked` can do (spec R198, steps 3 to 7). -/
theorem State.runChecked_cases {s t : State} {dims size frame : Bool} {effect : State → State}
    (h : s.runChecked dims size frame effect = .next t) :
    (dims = false ∧ t = s.raise .dimError) ∨
    (dims = true ∧ size = false ∧ t = s.noteW16.raise .sizeMismatch) ∨
    (dims = true ∧ size = true ∧ frame = false ∧ t = s.noteW16.raise .frameError) ∨
    (dims = true ∧ size = true ∧ frame = true ∧ t = (effect s.noteW16).complete) := by
  cases dims <;> cases size <;> cases frame <;> simp_all [State.runChecked]

/-- A command whose checks all pass has its effects and completes (spec R207). -/
theorem State.runChecked_completes (s : State) (effect : State → State) :
    s.runChecked true true true effect = .next (effect s.noteW16).complete := rfl

/-- The shared order of checks always answers a next state. -/
theorem State.runChecked_next (s : State) (dims size frame : Bool) (effect : State → State) :
    ∃ t, s.runChecked dims size frame effect = .next t := by
  cases dims <;> cases size <;> cases frame <;> exact ⟨_, rfl⟩

/-! Each command as one run of the shared checks (its rule of the spec, with R198). -/

theorem exec_layout (f : PixelFormat) (s : State) :
    exec (.layout (.fmt f)) s = s.runChecked (s.dimsOk (fam f)) true true fun t => t.storeLayout f := rfl

theorem exec_dec (f : PixelFormat) (s : State) :
    exec (.dec (.fmt f)) s = s.runChecked (s.dimsOk (fam f)) (s.sizeOk f) true fun t => t.loadFrame f := rfl

theorem exec_enc (f : PixelFormat) (s : State) :
    exec (.enc (.fmt f)) s = s.runChecked (s.dimsOk (fam f)) true (s.frameOk (fam f)) fun t => t.storeFrame f := rfl

theorem exec_dn422 (s : State) :
    exec .dn422 s = s.runChecked (s.dimsOk .f420) true (s.frameOk .f422) fun t => t.downFrame := rfl

theorem exec_up420 (s : State) :
    exec .up420 s = s.runChecked (s.dimsOk .f420) true (s.frameOk .f420) fun t => t.upFrame := rfl

theorem exec_conv (fs fd : PixelFormat) (s : State) :
    exec (.conv (.fmt fs) (.fmt fd)) s =
      s.runChecked (s.dimsOk (fam fs) && s.dimsOk (fam fd)) (s.sizeOk fs) true fun t => t.convertFrame fs fd := rfl

/-- Everything a command can do: it takes a fault before its checks on the dimensions, or it runs checked. -/
theorem exec_cases (i : Instr) (s : State) :
    exec i s = .next (s.raise .unsupportedFormat) ∨
    ∃ dims size frame effect, exec i s = s.runChecked dims size frame effect := by
  cases i with
  | layout fa =>
    cases fa with
    | fmt f => exact .inr ⟨_, _, _, _, exec_layout f s⟩
    | unlisted n => exact .inl rfl
  | dec fa =>
    cases fa with
    | fmt f => exact .inr ⟨_, _, _, _, exec_dec f s⟩
    | unlisted n => exact .inl rfl
  | enc fa =>
    cases fa with
    | fmt f => exact .inr ⟨_, _, _, _, exec_enc f s⟩
    | unlisted n => exact .inl rfl
  | dn422 => exact .inr ⟨_, _, _, _, exec_dn422 s⟩
  | up420 => exact .inr ⟨_, _, _, _, exec_up420 s⟩
  | conv fa fb =>
    cases fa with
    | unlisted n => exact .inl rfl
    | fmt fs =>
      cases fb with
      | unlisted n => exact .inl rfl
      | fmt fd => exact .inr ⟨_, _, _, _, exec_conv fs fd s⟩

/-- A command always answers a next state. -/
theorem exec_next (i : Instr) (s : State) : ∃ t, exec i s = .next t := by
  rcases exec_cases i s with h | ⟨d, z, f, e, h⟩
  · exact ⟨_, h⟩
  · rw [h]
    exact s.runChecked_next d z f e

end Sys2Proof.Machine
end

