-- ==== Sys2Proof/Laws/Decode.lean ====
section
/-! SUPPORT. The tag codes and the fields of an encoded word. -/

namespace Sys2Proof

/-- A well-formed tag is read back from its code (spec R92). -/
theorem Tag.ofCode_code {t : Tag} (h : t.wellFormed = true) : Tag.ofCode t.code = t := by
  cases t with
  | fmt f => cases f <;> rfl
  | unlisted n =>
    simp only [Tag.wellFormed, Bool.and_eq_true, decide_eq_true_eq] at h
    obtain ⟨h6, h15⟩ := h
    interval_cases n <;> rfl

/-- Every 4-bit code is the code of the tag it is read as (spec R92). -/
theorem Tag.code_ofCode (c : BitVec 4) : (Tag.ofCode c).code = c := by
  revert c
  decide

/-- Every 4-bit code is read as a well-formed tag (spec R92). -/
theorem Tag.ofCode_wellFormed (c : BitVec 4) : (Tag.ofCode c).wellFormed = true := by
  revert c
  decide

/-- Bit by bit, an encoded word (spec R90). -/
theorem getLsbD_commandWord (op fa fb : BitVec 4) (i : Nat) :
    (commandWord op fa fb).getLsbD i =
      (op.getLsbD i || (decide (4 ≤ i) && fa.getLsbD (i - 4)) || (decide (8 ≤ i) && fb.getLsbD (i - 8))) := by
  by_cases h : i < 32
  · simp only [commandWord, BitVec.getLsbD_or, BitVec.getLsbD_shiftLeft, BitVec.getLsbD_setWidth, h]
    have h1 : i - 4 < 32 := by omega
    have h2 : i - 8 < 32 := by omega
    by_cases h4 : i < 4 <;> by_cases h8 : i < 8 <;> simp [h1, h2, h4, h8, Nat.not_le.2, Nat.not_lt.1]
  · rw [BitVec.getLsbD_of_ge _ _ (by omega), BitVec.getLsbD_of_ge op _ (by omega),
      BitVec.getLsbD_of_ge fa _ (by omega), BitVec.getLsbD_of_ge fb _ (by omega)]
    simp

@[simp] theorem opField_commandWord (op fa fb : BitVec 4) : opField (commandWord op fa fb) = op := by
  apply BitVec.eq_of_getLsbD_eq
  intro i hi
  have h4 : ¬ 4 ≤ i := by omega
  have h8 : ¬ 8 ≤ i := by omega
  simp [opField, getLsbD_commandWord, hi, h4, h8]

@[simp] theorem faField_commandWord (op fa fb : BitVec 4) : faField (commandWord op fa fb) = fa := by
  apply BitVec.eq_of_getLsbD_eq
  intro i hi
  have h8 : ¬ 8 ≤ 4 + i := by omega
  simp [faField, getLsbD_commandWord, hi, h8]

@[simp] theorem fbField_commandWord (op fa fb : BitVec 4) : fbField (commandWord op fa fb) = fb := by
  apply BitVec.eq_of_getLsbD_eq
  intro i hi
  have ho : op.getLsbD (8 + i) = false := BitVec.getLsbD_of_ge _ _ (by omega)
  have ha : fa.getLsbD (8 + i - 4) = false := BitVec.getLsbD_of_ge _ _ (by omega)
  simp [fbField, getLsbD_commandWord, hi, ho, ha]

@[simp] theorem zField_commandWord (op fa fb : BitVec 4) : zField (commandWord op fa fb) = 0#20 := by
  apply BitVec.eq_of_getLsbD_eq
  intro i hi
  have ho : op.getLsbD (12 + i) = false := BitVec.getLsbD_of_ge _ _ (by omega)
  have ha : fa.getLsbD (12 + i - 4) = false := BitVec.getLsbD_of_ge _ _ (by omega)
  have hb : fb.getLsbD (12 + i - 8) = false := BitVec.getLsbD_of_ge _ _ (by omega)
  simp [zField, BitVec.getLsbD_extractLsb', getLsbD_commandWord, ho, ha, hb]

end Sys2Proof
end

