-- ==== Sys2Proof/Laws/Memory.lean ====
section
/-! SUPPORT. Buffers: a read after a write, and that every operation keeps the canonical form. -/

namespace Sys2Proof.Machine

open Sys2Proof

@[simp] theorem Memory.read_nil (k : Nat) : Memory.read [] k = none := rfl

theorem Memory.read_write_same (m : Memory) (k : Nat) (b : Byte) : (m.write k b).read k = some b := by
  induction m with
  | nil => simp [Memory.write, Memory.read]
  | cons c rest ih =>
    obtain ⟨a, x⟩ := c
    by_cases h1 : k < a
    · simp [Memory.write, Memory.read, h1]
    · by_cases h2 : k = a
      · simp [Memory.write, Memory.read, h2]
      · have h3 : ¬ a = k := fun h => h2 h.symm
        simp [Memory.write, Memory.read, h1, h2, h3, ih]

theorem Memory.read_write_other (m : Memory) {k j : Nat} (b : Byte) (h : j ≠ k) :
    (m.write k b).read j = m.read j := by
  have hk : ¬ k = j := fun e => h e.symm
  induction m with
  | nil => simp [Memory.write, Memory.read, hk]
  | cons c rest ih =>
    obtain ⟨a, x⟩ := c
    by_cases h1 : k < a
    · simp [Memory.write, Memory.read, h1, hk]
    · by_cases h2 : k = a
      · subst h2
        simp [Memory.write, Memory.read, hk]
      · by_cases h3 : a = j
        · subst h3
          simp [Memory.write, Memory.read, h1, h2]
        · simp [Memory.write, Memory.read, h1, h2, h3, ih]

/-- A write read back anywhere. -/
theorem Memory.read_write (m : Memory) (k j : Nat) (b : Byte) :
    (m.write k b).read j = if j = k then some b else m.read j := by
  by_cases h : j = k
  · simp [h, Memory.read_write_same]
  · simp [h, Memory.read_write_other]

/-- The canonical form of a non-empty buffer: the first address lies below all others, which are canonical. -/
theorem Memory.wf_cons (a : Nat) (x : Byte) (rest : Memory) :
    Memory.wf ((a, x) :: rest) = true ↔ (∀ c ∈ rest, a < c.1) ∧ Memory.wf rest = true := by
  induction rest generalizing a x with
  | nil => simp [Memory.wf]
  | cons c rest ih =>
    obtain ⟨b, y⟩ := c
    simp only [Memory.wf, Bool.and_eq_true, decide_eq_true_eq, List.mem_cons, forall_eq_or_imp, ih b y]
    constructor
    · rintro ⟨hab, hb, hr⟩
      exact ⟨⟨hab, fun c hc => hab.trans (hb c hc)⟩, hb, hr⟩
    · rintro ⟨⟨hab, -⟩, hb, hr⟩
      exact ⟨hab, hb, hr⟩

theorem Memory.mem_write {m : Memory} {k : Nat} {b : Byte} {c : Host.Cell} (h : c ∈ m.write k b) :
    c = (k, b) ∨ c ∈ m := by
  induction m with
  | nil => simpa [Memory.write] using h
  | cons d rest ih =>
    obtain ⟨a, x⟩ := d
    simp only [Memory.write] at h
    split at h
    · simpa using h
    · split at h
      · rcases List.mem_cons.1 h with h | h
        · exact .inl h
        · exact .inr (List.mem_cons_of_mem _ h)
      · rcases List.mem_cons.1 h with h | h
        · exact .inr (by simp [h])
        · rcases ih h with h | h
          · exact .inl h
          · exact .inr (List.mem_cons_of_mem _ h)

/-- Writing keeps the canonical form. -/
theorem Memory.write_wf {m : Memory} (k : Nat) (b : Byte) (h : m.wf = true) : (m.write k b).wf = true := by
  induction m with
  | nil => rfl
  | cons d rest ih =>
    obtain ⟨a, x⟩ := d
    obtain ⟨ha, hr⟩ := (Memory.wf_cons a x rest).1 h
    simp only [Memory.write]
    split
    · next hk =>
      refine (Memory.wf_cons _ _ _).2 ⟨?_, h⟩
      intro c hc
      rcases List.mem_cons.1 hc with rfl | hc
      · exact hk
      · exact hk.trans (ha c hc)
    · split
      · next _ hk =>
        subst hk
        exact (Memory.wf_cons _ _ _).2 ⟨ha, hr⟩
      · next h1 h2 =>
        refine (Memory.wf_cons _ _ _).2 ⟨?_, ih hr⟩
        intro c hc
        rcases Memory.mem_write hc with rfl | hc
        · show a < k
          omega
        · exact ha c hc

theorem Memory.read_erase (m : Memory) (k j : Nat) : (m.erase k).read j = if j = k then none else m.read j := by
  induction m with
  | nil => simp [Memory.erase]
  | cons d rest ih =>
    obtain ⟨a, x⟩ := d
    by_cases ha : a = k
    · subst ha
      by_cases hj : j = a
      · simpa [Memory.erase, hj] using ih
      · have hj' : ¬ a = j := fun e => hj e.symm
        simp [Memory.erase, Memory.read, ih, hj, hj']
    · by_cases hj : a = j
      · subst hj
        simp [Memory.erase, Memory.read, ha]
      · simp [Memory.erase, Memory.read, ha, hj, ih]

theorem Memory.mem_erase {m : Memory} {k : Nat} {c : Host.Cell} (h : c ∈ m.erase k) : c ∈ m := by
  induction m with
  | nil => exact h
  | cons d rest ih =>
    obtain ⟨a, x⟩ := d
    simp only [Memory.erase] at h
    split at h
    · exact List.mem_cons_of_mem _ (ih h)
    · rcases List.mem_cons.1 h with h | h
      · exact h ▸ List.mem_cons_self
      · exact List.mem_cons_of_mem _ (ih h)

/-- Erasing keeps the canonical form. -/
theorem Memory.erase_wf {m : Memory} (k : Nat) (h : m.wf = true) : (m.erase k).wf = true := by
  induction m with
  | nil => rfl
  | cons d rest ih =>
    obtain ⟨a, x⟩ := d
    obtain ⟨ha, hr⟩ := (Memory.wf_cons a x rest).1 h
    simp only [Memory.erase]
    split
    · exact ih hr
    · exact (Memory.wf_cons _ _ _).2 ⟨fun c hc => ha c (Memory.mem_erase hc), ih hr⟩

/-- A sample put into a buffer and read back anywhere. -/
theorem Memory.read_put (m : Memory) (k j : Nat) (v : Sample) :
    (m.put k v).read j = if j = k then v else m.read j := by
  cases v with
  | none => exact Memory.read_erase m k j
  | some b => exact Memory.read_write m k j b

/-- Putting a sample keeps the canonical form. -/
theorem Memory.put_wf {m : Memory} (k : Nat) (v : Sample) (h : m.wf = true) : (m.put k v).wf = true := by
  cases v with
  | none => exact Memory.erase_wf k h
  | some b => exact Memory.write_wf k b h

/-- No entry of a canonical buffer lies at or below an address smaller than all of its own. -/
theorem Memory.read_eq_none_of_lt {m : Memory} {k : Nat} (h : ∀ c ∈ m, k < c.1) : m.read k = none := by
  induction m with
  | nil => rfl
  | cons d rest ih =>
    obtain ⟨a, x⟩ := d
    have ha : k < a := h (a, x) (by simp)
    have hne : ¬ a = k := by omega
    simp only [Memory.read, hne, if_false]
    exact ih fun c hc => h c (List.mem_cons_of_mem _ hc)

/-- Two canonical buffers that read alike everywhere are the same data. -/
theorem Memory.ext_of_wf {m n : Memory} (hm : m.wf = true) (hn : n.wf = true) (h : ∀ k, m.read k = n.read k) :
    m = n := by
  induction m generalizing n with
  | nil =>
    cases n with
    | nil => rfl
    | cons d rest =>
      obtain ⟨a, x⟩ := d
      have := h a
      simp [Memory.read] at this
  | cons d rest ih =>
    obtain ⟨a, x⟩ := d
    obtain ⟨ha, hr⟩ := (Memory.wf_cons a x rest).1 hm
    cases n with
    | nil =>
      have := h a
      simp [Memory.read] at this
    | cons e rest' =>
      obtain ⟨b, y⟩ := e
      obtain ⟨hb, hr'⟩ := (Memory.wf_cons b y rest').1 hn
      have hab : a = b := by
        rcases Nat.lt_trichotomy a b with hlt | heq | hlt
        · have h1 := h a
          have h2 : Memory.read ((b, y) :: rest') a = none :=
            Memory.read_eq_none_of_lt (by
              intro c hc
              rcases List.mem_cons.1 hc with rfl | hc
              · exact hlt
              · exact hlt.trans (hb c hc))
          rw [h2] at h1
          simp [Memory.read] at h1
        · exact heq
        · have h1 := h b
          have h2 : Memory.read ((a, x) :: rest) b = none :=
            Memory.read_eq_none_of_lt (by
              intro c hc
              rcases List.mem_cons.1 hc with rfl | hc
              · exact hlt
              · exact hlt.trans (ha c hc))
          rw [h2] at h1
          simp [Memory.read] at h1
      subst hab
      have hxy : x = y := by simpa [Memory.read] using h a
      subst hxy
      have : rest = rest' := ih hr hr' fun k => by
        have hk := h k
        by_cases hka : a = k
        · subst hka
          rw [Memory.read_eq_none_of_lt ha, Memory.read_eq_none_of_lt hb]
        · simpa [Memory.read, hka] using hk
      rw [this]

end Sys2Proof.Machine
end

