-- ==== Sys2Proof/Laws/HostPort.lean ====
section
/-! SUPPORT. What the host's accesses can do. -/

namespace Sys2Proof.Machine

open Sys2Proof

/-- A buffer access that answers a next state is one byte wide below `CAP`, and answers the state given. -/
theorem State.bufferStep_next {s u t : State} {k n : Nat} (h : s.bufferStep k n u = .next t) :
    n = 1 ∧ k < s.cap ∧ t = u := by
  unfold State.bufferStep at h
  split at h
  · cases h
  · next hn =>
    split at h
    · next hk =>
      cases h
      exact ⟨by simpa using hn, hk, rfl⟩
    · cases h

/-- Everything a host access that is a step can do (spec R65 to R69). -/
theorem hostAccess_cases {a : HostAccess} {s t : State} (h : hostAccess a s = .next t) :
    (∃ off, a = .read .reg off 4 ∧ t = s.reply (.reg off (s.regRead off))) ∨
    (∃ off v, a = .write .reg off 4 v ∧ off % 4 = 0 ∧ t = s.regWrite off v) ∨
    (∃ k, a = .read .inBuf k 1 ∧ k < s.cap ∧ t = s.replyByte (s.inByte k) (.inByte k)) ∨
    (∃ k v, a = .write .inBuf k 1 v ∧ k < s.cap ∧ t = s.writeIn k (v.setWidth 8)) ∨
    (∃ k, a = .read .outBuf k 1 ∧ k < s.cap ∧ t = s.replyByte (s.outByte k) (.outByte k)) ∨
    (∃ k v, a = .write .outBuf k 1 v ∧ k < s.cap ∧ t = s) := by
  cases a with
  | read sp k n =>
    cases sp with
    | reg =>
      simp only [hostAccess] at h
      split at h
      · next hs =>
        simp only [regShapeOk, Bool.and_eq_true, beq_iff_eq] at hs
        cases h
        exact .inl ⟨k, by rw [hs.1], rfl⟩
      · cases h
    | inBuf =>
      obtain ⟨rfl, hk, rfl⟩ := State.bufferStep_next h
      exact .inr (.inr (.inl ⟨k, rfl, hk, rfl⟩))
    | outBuf =>
      obtain ⟨rfl, hk, rfl⟩ := State.bufferStep_next h
      exact .inr (.inr (.inr (.inr (.inl ⟨k, rfl, hk, rfl⟩))))
  | write sp k n v =>
    cases sp with
    | reg =>
      simp only [hostAccess] at h
      split at h
      · next hs =>
        simp only [regShapeOk, Bool.and_eq_true, beq_iff_eq] at hs
        cases h
        exact .inr (.inl ⟨k, v, by rw [hs.1], hs.2, rfl⟩)
      · cases h
    | inBuf =>
      obtain ⟨rfl, hk, rfl⟩ := State.bufferStep_next h
      exact .inr (.inr (.inr (.inl ⟨k, v, rfl, hk, rfl⟩)))
    | outBuf =>
      obtain ⟨rfl, hk, rfl⟩ := State.bufferStep_next h
      exact .inr (.inr (.inr (.inr (.inr ⟨k, v, rfl, hk, rfl⟩))))

/-- A host read of a buffer byte changes the replies and the counter of free readings, nothing else. -/
theorem State.replyByte_frame (s : State) (held : Option Byte) (mk : Byte → Reply) :
    s.replyByte held mk =
      { s with replies := (s.replyByte held mk).replies, draws := (s.replyByte held mk).draws } := by
  cases held <;> rfl

/-- Everything a register write can do (spec R65). -/
theorem State.regWrite_cases (s : State) (off : Nat) (v : Word) :
    s.regWrite off v = s ∨ s.regWrite off v = s.writeCtrl v ∨ s.regWrite off v = s.writeStatus v ∨
    s.regWrite off v = s.writeCmd v ∨ s.regWrite off v = s.writeWidth v ∨ s.regWrite off v = s.writeHeight v ∨
    s.regWrite off v = s.writeInLen v := by
  unfold State.regWrite
  split <;> simp

end Sys2Proof.Machine
end

