-- ==== Sys2Proof/Laws/Operands.lean ====
section
/-! SUPPORT. Formats, layouts, the dimension check, and what gathering and scattering a plane does. -/

namespace Sys2Proof.Machine

open Sys2Proof

/-- The dimension check, clause by clause (spec R115). -/
theorem dimsOk_iff (cap : Nat) (F : Family) (w h : Nat) :
    dimsOk cap F w h = true ↔
      2 ≤ w ∧ w % 2 = 0 ∧ 1 ≤ h ∧ (F = .f422 ∨ h % 2 = 0) ∧ 2 * w * h ≤ cap := by
  simp [dimsOk, and_assoc]

/-- A legal frame fits the capacity (spec R115, R117). -/
theorem fsize_le_two_wh (f : PixelFormat) (w h : Nat) : fsize f w h ≤ 2 * w * h := by
  have e : 2 * w * h = w * h * 2 := by ring
  unfold fsize
  cases fam f <;> simp only [e] <;> omega

@[simp] theorem gather_length (raw : Memory) (a : Accessor) : (gather raw a).length = a.count := by
  simp [gather]

/-- Sample `k` of a gathered plane is the byte at the accessor's offset (spec R130). -/
theorem gather_get (raw : Memory) (a : Accessor) {k : Nat} (h : k < a.count) :
    (gather raw a)[k]? = some (raw.read (a.offset k)) := by
  simp [gather, List.getElem?_map, List.getElem?_range h]

/-- Two raw frames that agree at an accessor's offsets gather alike. -/
theorem gather_congr {raw raw' : Memory} {a : Accessor}
    (h : ∀ k < a.count, raw.read (a.offset k) = raw'.read (a.offset k)) : gather raw a = gather raw' a := by
  simp only [gather, List.map_inj_left, List.mem_range]
  exact h

theorem scatterUpTo_wf {raw : Memory} (a : Accessor) (p : Plane) (c : Nat) (h : raw.wf = true) :
    (scatterUpTo raw a p c).wf = true := by
  induction c with
  | zero => exact h
  | succ c ih => exact Memory.put_wf _ _ ih

/-- Scattering keeps the canonical form. -/
theorem scatter_wf {raw : Memory} (a : Accessor) (p : Plane) (h : raw.wf = true) : (scatter raw a p).wf = true :=
  scatterUpTo_wf a p _ h

/-- An address that is none of the offsets written keeps its byte. -/
theorem scatterUpTo_read_other (raw : Memory) (a : Accessor) (p : Plane) (c o : Nat)
    (h : ∀ k < c, a.offset k ≠ o) : (scatterUpTo raw a p c).read o = raw.read o := by
  induction c with
  | zero => rfl
  | succ c ih =>
    rw [scatterUpTo, Memory.read_put, if_neg (h c (by omega)).symm]
    exact ih fun k hk => h k (by omega)

/-- With a step of at least 1 no offset is written twice, and the offset of sample `k` holds that sample. -/
theorem scatterUpTo_read_offset (raw : Memory) (a : Accessor) (p : Plane) (c : Nat) (ha : 0 < a.step)
    {k : Nat} (hk : k < c) : (scatterUpTo raw a p c).read (a.offset k) = p.sample k := by
  induction c with
  | zero => omega
  | succ c ih =>
    rw [scatterUpTo, Memory.read_put]
    by_cases h : k = c
    · simp [h]
    · have hne : a.offset k ≠ a.offset c := fun e =>
        h (Nat.eq_of_mul_eq_mul_right ha (by simpa [Accessor.offset] using e))
      rw [if_neg hne]
      exact ih (by omega)

theorem scatter_read_other (raw : Memory) (a : Accessor) (p : Plane) (o : Nat)
    (h : ∀ k < a.count, a.offset k ≠ o) : (scatter raw a p).read o = raw.read o :=
  scatterUpTo_read_other raw a p a.count o h

theorem scatter_read_offset (raw : Memory) (a : Accessor) (p : Plane) (ha : 0 < a.step)
    {k : Nat} (hk : k < a.count) : (scatter raw a p).read (a.offset k) = p.sample k :=
  scatterUpTo_read_offset raw a p a.count ha hk

/-- A specified sample reads as its byte at every tap, whatever the free bytes are. -/
theorem Plane.tapRead_specified {p : Plane} {k : Nat} {b : Byte} (h : p[k]? = some (some b)) (inst n out tap : Nat) :
    p.tapRead inst n out tap k = b := by
  simp [Plane.tapRead, Plane.sample, h]

theorem encodePlanes_wf (y cb cr : Plane) (f : PixelFormat) (w h : Nat) :
    (encodePlanes y cb cr f w h).wf = true :=
  scatter_wf _ _ (scatter_wf _ _ (scatter_wf _ _ rfl))

end Sys2Proof.Machine
end

