-- ==== Sys2Proof/Laws/PerInstr.lean ====
section
/-! SUPPORT. The family TableRow: the encoding of a command matches its row of spec/opcode_table.json. -/

namespace Sys2Proof.Laws.TableRow

open Sys2Proof

/-- The mask of a command's row in spec/opcode_table.json. -/
def rowMask : Instr → Word
  | .layout _ => 0xFFFFFF0F#32
  | .dec _ => 0xFFFFFF0F#32
  | .enc _ => 0xFFFFFF0F#32
  | .dn422 => 0xFFFFFFFF#32
  | .up420 => 0xFFFFFFFF#32
  | .conv _ _ => 0xFFFFF00F#32

/-- The match of a command's row in spec/opcode_table.json. -/
def rowMatch : Instr → Word
  | .layout _ => 0x00000001#32
  | .dec _ => 0x00000002#32
  | .enc _ => 0x00000003#32
  | .dn422 => 0x00000004#32
  | .up420 => 0x00000005#32
  | .conv _ _ => 0x00000006#32

/-- The encoding of the command lies in its row: `word & mask = match` (spec R98). -/
def Statement (i : Instr) : Prop := encode i &&& rowMask i = rowMatch i

theorem masked_one_field (op fa : BitVec 4) :
    commandWord op fa 0#4 &&& 0xFFFFFF0F#32 = commandWord op 0#4 0#4 := by
  revert op fa
  decide

theorem masked_two_fields (fa fb : BitVec 4) :
    commandWord 6#4 fa fb &&& 0xFFFFF00F#32 = commandWord 6#4 0#4 0#4 := by
  revert fa fb
  decide

theorem layout (fa : Tag) : Statement (.layout fa) := masked_one_field _ _
theorem dec (fa : Tag) : Statement (.dec fa) := masked_one_field _ _
theorem enc (fa : Tag) : Statement (.enc fa) := masked_one_field _ _
theorem dn422 : Statement .dn422 := by unfold Statement; decide
theorem up420 : Statement .up420 := by unfold Statement; decide
theorem conv (fa fb : Tag) : Statement (.conv fa fb) := masked_two_fields _ _

end Sys2Proof.Laws.TableRow
end

