-- ==== Sys2Proof/Laws/Resampler.lean ====
section
/-! SUPPORT. The lengths and the samples of filtered planes, and the clamp. -/

namespace Sys2Proof.Machine

open Sys2Proof

@[simp] theorem down_length (p : Plane) (cw rows inst n : Nat) : (down p cw rows inst n).length = cw * (rows / 2) := by
  simp [down]

@[simp] theorem up_length (p : Plane) (cw rows inst n : Nat) : (up p cw rows inst n).length = cw * (2 * rows) := by
  simp [up]

/-- Column `i`, row `r` of a plane of `cw` columns, from its index (spec R23). -/
theorem index_col {cw i : Nat} (r : Nat) (h : i < cw) : (r * cw + i) % cw = i := by
  rw [Nat.mul_comm, Nat.mul_add_mod, Nat.mod_eq_of_lt h]

theorem index_row {cw i : Nat} (r : Nat) (h : i < cw) : (r * cw + i) / cw = r := by
  have : 0 < cw := by omega
  rw [Nat.mul_comm, Nat.mul_add_div this, Nat.div_eq_of_lt h, Nat.add_zero]

theorem index_lt {cw i r rows : Nat} (h : i < cw) (hr : r < rows) : r * cw + i < cw * rows := by
  have : (r + 1) * cw ≤ rows * cw := Nat.mul_le_mul_right cw hr
  rw [Nat.add_mul, Nat.one_mul] at this
  rw [Nat.mul_comm cw rows]
  omega

/-- The downsampler's output sample at column `i`, row `r` (spec R154). -/
theorem down_get (p : Plane) {cw rows i r : Nat} (inst n : Nat) (hi : i < cw) (hr : r < rows / 2) :
    (down p cw rows inst n)[r * cw + i]? =
      some (some (downSample (p.tapRead inst n (r * cw + i)) cw rows i (2 * r))) := by
  simp [down, List.getElem?_map, List.getElem?_range (index_lt hi hr), index_col r hi, index_row r hi]

/-- The upsampler's output sample at column `i`, row `r` (spec R156, R157). -/
theorem up_get (p : Plane) {cw rows i r : Nat} (inst n : Nat) (hi : i < cw) (hr : r < 2 * rows) :
    (up p cw rows inst n)[r * cw + i]? =
      some (some (upSample (p.tapRead inst n (r * cw + i)) cw rows i r)) := by
  simp [up, List.getElem?_map, List.getElem?_range (index_lt hi hr), index_col r hi, index_row r hi]

/-- A pixel is an integer 0 to 255 (spec R151). -/
theorem pixel_bounds (src : Nat → Nat → Byte) (cw i tap r : Nat) :
    0 ≤ pixel src cw i tap r ∧ pixel src cw i tap r ≤ 255 := by
  have := (src tap (r * cw + i)).isLt
  unfold pixel
  omega

/-- The clamp, as a natural number (spec R8). -/
theorem clip255_toNat (v : Int) : ((clip255 v).toNat : Int) = max 0 (min 255 v) := by
  have h : (max 0 (min 255 v)).toNat < 2 ^ 8 := by omega
  simp only [clip255, BitVec.toNat_ofNat, Nat.mod_eq_of_lt h]
  omega

/-- The shift is the floor division, Lean's arithmetic shift of an integer (spec R7). -/
theorem asr_eq_shiftRight (a : Int) (n : Nat) : asr a n = a >>> n := by
  rw [asr, Int.shiftRight_eq_div_pow]
  norm_cast

end Sys2Proof.Machine
end

