-- ==== Sys2Proof/Laws/Step.lean ====
section
/-! SUPPORT. What one step can do. -/

namespace Sys2Proof.Machine

open Sys2Proof

/-- Everything the engine's turn can do (spec R25). -/
theorem engineTurn_cases {s t : State} (h : engineTurn s = .next t) :
    (s.phase = .idle ∧ t = s) ∨
    (s.phase = .busy ∧ ∃ i, decode s.cmdl = .command i ∧ exec i s = .next t) ∨
    (s.phase = .busy ∧ (∃ r, decode s.cmdl = .illegal r) ∧ t = s.raise .illegalCommand) := by
  unfold engineTurn at h
  split at h
  · next hp =>
    cases h
    exact .inl ⟨hp, rfl⟩
  · next hp =>
    unfold runWord at h
    split at h
    · next i hd => exact .inr (.inl ⟨hp, i, hd, h⟩)
    · next r hd =>
      cases h
      exact .inr (.inr ⟨hp, ⟨r, hd⟩, rfl⟩)

/-- Everything a step can do: the engine's turn, a host access, or the reset input (spec R19). -/
theorem step_cases {s t : State} (h : step s = .next t) :
    ((s.turns = [] ∨ s.turns.head? = some .engine) ∧ engineTurn { s with turns := s.turns.tail } = .next t) ∨
    (∃ a, s.turns.head? = some (.host a) ∧ hostAccess a { s with turns := s.turns.tail } = .next t) ∨
    (s.turns.head? = some .hardReset ∧ t = { s with turns := s.turns.tail }.resetEngine) := by
  obtain ⟨cap, inst, phase, cmdl, done, w16, haz, err, ieDone, ieErr, width, height, inLen, outLen, errinfo, frame, ly,
    inMem, outMem, draws, turns, replies⟩ := s
  cases turns with
  | nil => exact .inl ⟨.inl rfl, h⟩
  | cons turn rest =>
    cases turn with
    | engine => exact .inl ⟨.inr rfl, h⟩
    | host a => exact .inr (.inl ⟨a, rfl, h⟩)
    | hardReset =>
      refine .inr (.inr ⟨rfl, ?_⟩)
      simp only [step, takeTurn] at h
      cases h
      rfl

end Sys2Proof.Machine
end

