-- ==== Sys2Proof/Tests/Slice0.lean ====
section
/-! SUPPORT. The model's own tests: words and numbers copied from spec/ (95_test_vectors.md unless another file is
named), and for every statement with hypotheses a state and operands that meet them all. -/

namespace Sys2Proof.Tests

open Sys2Proof Sys2Proof.Machine Sys2Proof.Safety

/-! ## States to test on -/

/-- Consecutive specified bytes from address `k` on. -/
def cellsFrom (k : Nat) : List Byte → Memory
  | [] => []
  | b :: rest => (k, b) :: cellsFrom (k + 1) rest

/-- After reset, then WIDTH, HEIGHT, IN and IN_LEN written. -/
def loaded (w h : Dim) (raw : List Byte) : State :=
  { State.reset with width := w, height := h, inMem := cellsFrom 0 raw, inLen := BitVec.ofNat 32 raw.length }

/-- A state with a Frame of the given planes and the dimensions to match. -/
def framed (F : Family) (w h : Dim) (py pcb pcr : List Byte) : State :=
  { State.reset with
    width := w, height := h
    frame := ⟨true, F, w, h, py.map some, pcb.map some, pcr.map some⟩ }

/-- A state in which the word `w` has been issued. -/
def issued (s : State) (w : Word) : State := s.issue w

/-- What holds of the next state. -/
def after (o : Host.Outcome State Fault Refusal) (p : State → Bool) : Bool :=
  match o with
  | .next t => p t
  | .fault _ => false
  | .refused _ => false

/-- A state with both buffers, the Frame and a command in it. -/
def busyState : State :=
  { issued (framed .f420 2#16 2#16 [1#8, 2#8, 3#8, 4#8] [5#8] [6#8]) 0x00000013#32 with
    inMem := cellsFrom 0 [1#8, 2#8], outMem := cellsFrom 0 [7#8], outLen := 1#32, w16 := true }

/-- A state in which a fault is latched. -/
def faultState : State := { State.reset with err := some .dimError, errinfo := 0x00000002#32 }

/-! ## Syntax: terms that fit no command word (spec R90, R92) -/

theorem test_illFormed_layout : (Instr.layout (.unlisted 5)).wellFormed = false := by decide
theorem test_illFormed_dec : (Instr.dec (.unlisted 16)).wellFormed = false := by decide
theorem test_illFormed_enc : (Instr.enc (.unlisted 0)).wellFormed = false := by decide
theorem test_illFormed_conv_source : (Instr.conv (.unlisted 16) (.fmt .yv12)).wellFormed = false := by decide
theorem test_illFormed_conv_destination : (Instr.conv (.fmt .yv12) (.unlisted 5)).wellFormed = false := by decide
theorem test_wellFormed_edges :
    (Instr.conv (.unlisted 6) (.unlisted 15)).wellFormed = true ∧ Instr.dn422.wellFormed = true := by decide

/-! ## Words, written out from 30_encoding.md R90 to R92: `z(20) fb(4) fa(4) op(4)` -/

theorem test_word_layout : decode 0b00000000000000000000_0000_0101_0001#32 = .command (.layout (.fmt .y422)) := by
  decide
theorem test_word_dec : decode 0b00000000000000000000_0000_0100_0010#32 = .command (.dec (.fmt .yuy2)) := by decide
theorem test_word_enc : decode 0b00000000000000000000_0000_0011_0011#32 = .command (.enc (.fmt .yvyu)) := by decide
theorem test_word_dn422 : decode 0b00000000000000000000_0000_0000_0100#32 = .command .dn422 := by decide
theorem test_word_up420 : decode 0b00000000000000000000_0000_0000_0101#32 = .command .up420 := by decide
theorem test_word_conv :
    decode 0b00000000000000000000_0001_0000_0110#32 = .command (.conv (.fmt .yv12) (.fmt .iyuv)) ∧
    decode 0b00000000000000000000_0111_0110_0110#32 = .command (.conv (.unlisted 6) (.unlisted 7)) := by decide

/-- V-FLT: the five illegal words. -/
theorem test_words_illegal :
    decode 0x00000000#32 = .illegal .unassignedOpcode ∧ decode 0x00000007#32 = .illegal .unassignedOpcode ∧
    decode 0x00001002#32 = .illegal .highBitsSet ∧ decode 0x00000102#32 = .illegal .unusedFieldSet ∧
    decode 0x00000014#32 = .illegal .unusedFieldSet := by decide

/-! ## One command each -/

/-- V-LAY, 4x2 YV12: the register image at 0x28 to 0x50, and STATUS. -/
theorem test_layout_yv12 :
    after (exec (.layout (.fmt .yv12)) (loaded 4#16 2#16 [])) (fun t =>
      [0x28, 0x2C, 0x30, 0x34, 0x38, 0x3C, 0x40, 0x44, 0x48, 0x4C, 0x50, 0x04].map t.regRead ==
        [12#32, 0#32, 0#32, 1#32, 8#32, 8#32, 1#32, 2#32, 10#32, 1#32, 2#32, 0x006#32]) = true := by decide

/-- V-LAY, 2x1: Y422 completes; V-FLT's 4:2:0 dimension fault for the odd height. -/
theorem test_layout_odd_height :
    after (exec (.layout (.fmt .y422)) (loaded 2#16 1#16 [])) (fun t =>
      [0x28, 0x3C, 0x48, 0x4C, 0x50].map t.regRead == [4#32, 2#32, 3#32, 1#32, 1#32]) = true ∧
    after (exec (.layout (.fmt .yv12)) (loaded 2#16 1#16 [])) (fun t =>
      t.regRead 0x04 == 0x300#32 && t.regRead 0x28 == 0#32) = true := by decide

/-- V-DEC, UYVY at 4x2. -/
theorem test_dec_uyvy :
    after (exec (.dec (.fmt .uyvy)) (loaded 4#16 2#16
      [0x20#8, 0x21#8, 0x22#8, 0x23#8, 0x24#8, 0x25#8, 0x26#8, 0x27#8,
       0x28#8, 0x29#8, 0x2A#8, 0x2B#8, 0x2C#8, 0x2D#8, 0x2E#8, 0x2F#8])) (fun t =>
      t.frame.py == [0x21#8, 0x23#8, 0x25#8, 0x27#8, 0x29#8, 0x2B#8, 0x2D#8, 0x2F#8].map some &&
      t.frame.pcb == [0x20#8, 0x24#8, 0x28#8, 0x2C#8].map some &&
      t.frame.pcr == [0x22#8, 0x26#8, 0x2A#8, 0x2E#8].map some &&
      t.regRead 0x20 == 3#32 && t.regRead 0x24 == 0x00020004#32 && t.regRead 0x04 == 0x006#32) = true := by decide

/-- V-DEC, IYUV at 4x2: Cr lies before Cb. -/
theorem test_dec_iyuv :
    after (exec (.dec (.fmt .iyuv)) (loaded 4#16 2#16
      [0x10#8, 0x11#8, 0x12#8, 0x13#8, 0x14#8, 0x15#8, 0x16#8, 0x17#8, 0x18#8, 0x19#8, 0x1A#8, 0x1B#8])) (fun t =>
      t.frame.pcb == [0x1A#8, 0x1B#8].map some && t.frame.pcr == [0x18#8, 0x19#8].map some &&
      t.regRead 0x20 == 1#32) = true := by decide

/-- V-ENC, YVYU at 4x2: `OUT` and `OUT_LEN`; nothing at `OUT_LEN`. -/
theorem test_enc_yvyu :
    after (exec (.enc (.fmt .yvyu)) (framed .f422 4#16 2#16
      [0xA0#8, 0xA1#8, 0xA2#8, 0xA3#8, 0xA4#8, 0xA5#8, 0xA6#8, 0xA7#8] [0xB0#8, 0xB1#8, 0xB2#8, 0xB3#8]
      [0xC0#8, 0xC1#8, 0xC2#8, 0xC3#8])) (fun t =>
      t.outMem == cellsFrom 0
        [0xA0#8, 0xC0#8, 0xA1#8, 0xB0#8, 0xA2#8, 0xC1#8, 0xA3#8, 0xB1#8,
         0xA4#8, 0xC2#8, 0xA5#8, 0xB2#8, 0xA6#8, 0xC3#8, 0xA7#8, 0xB3#8] &&
      t.regRead 0x18 == 16#32 && t.outByte 16 == none) = true := by decide

/-- V-ENC, IYUV at 4x2; V-FLT: the other family takes FrameError. -/
theorem test_enc_iyuv :
    after (exec (.enc (.fmt .iyuv)) (framed .f420 4#16 2#16
      [0xA0#8, 0xA1#8, 0xA2#8, 0xA3#8, 0xA4#8, 0xA5#8, 0xA6#8, 0xA7#8] [0xB0#8, 0xB1#8] [0xC0#8, 0xC1#8])) (fun t =>
      t.outMem == cellsFrom 0
        [0xA0#8, 0xA1#8, 0xA2#8, 0xA3#8, 0xA4#8, 0xA5#8, 0xA6#8, 0xA7#8, 0xC0#8, 0xC1#8, 0xB0#8, 0xB1#8]) = true ∧
    after (exec (.enc (.fmt .uyvy)) (framed .f420 16#16 16#16 [] [] [])) (fun t => t.regRead 0x04 == 0x500#32) = true := by
  decide

/-- V-DN1: two planes of four rows and one column, as in P7. -/
theorem test_dn422_small :
    after (exec .dn422 (framed .f422 2#16 4#16 [] [10#8, 200#8, 30#8, 40#8] [20#8, 30#8, 40#8, 50#8])) (fun t =>
      t.frame.pcb == [95#8, 60#8].map some && t.frame.pcr == [25#8, 45#8].map some &&
      t.frame.ffam == .f420) = true := by decide

/-- V-DN2 and P4, sixteen rows: the ramp `j`, which the canonical sixth tap would turn into 1, 3, 5, 7, 9, 10, 12, 14,
and the plane with the greatest sum. -/
theorem test_dn422_sixteen_rows :
    after (exec .dn422 (framed .f422 2#16 16#16 []
      [0#8, 1#8, 2#8, 3#8, 4#8, 5#8, 6#8, 7#8, 8#8, 9#8, 10#8, 11#8, 12#8, 13#8, 14#8, 15#8]
      [0#8, 255#8, 255#8, 0#8, 0#8, 255#8, 255#8, 255#8, 255#8, 0#8, 0#8, 255#8, 0#8, 0#8, 0#8, 0#8])) (fun t =>
      t.frame.pcb == [0#8, 3#8, 5#8, 6#8, 8#8, 10#8, 12#8, 14#8].map some &&
      t.frame.pcr == [156#8, 128#8, 91#8, 255#8, 101#8, 93#8, 43#8, 0#8].map some) = true := by decide

/-- V-UP1 (P3): [10, 200]; and the constant plane of S5. -/
theorem test_up420_small :
    after (exec .up420 (framed .f420 2#16 4#16 [] [10#8, 200#8] [128#8, 128#8])) (fun t =>
      t.frame.pcb == [0#8, 50#8, 160#8, 219#8].map some &&
      t.frame.pcr == [128#8, 128#8, 128#8, 128#8].map some && t.frame.ffam == .f422) = true := by decide

/-- V-UP2: the impulse, whose two phases show every coefficient, and the step. -/
theorem test_up420_eight_rows :
    after (exec .up420 (framed .f420 2#16 16#16 [] [0#8, 0#8, 0#8, 0#8, 255#8, 0#8, 0#8, 0#8]
      [0#8, 0#8, 0#8, 0#8, 255#8, 255#8, 255#8, 255#8])) (fun t =>
      t.frame.pcb == [0#8, 0#8, 0#8, 3#8, 7#8, 0#8, 0#8, 67#8, 226#8, 226#8, 67#8, 0#8, 0#8, 7#8, 3#8, 0#8].map some &&
      t.frame.pcr ==
        [0#8, 0#8, 0#8, 3#8, 7#8, 0#8, 0#8, 54#8, 201#8, 255#8, 255#8, 248#8, 252#8, 255#8, 255#8, 255#8].map some)
      = true := by decide

/-- P2: UYVY to YV12 at 2x4. -/
theorem test_conv_down :
    after (exec (.conv (.fmt .uyvy) (.fmt .yv12)) (loaded 2#16 4#16
      [0x0A#8, 0x51#8, 0x14#8, 0x52#8, 0xC8#8, 0x53#8, 0x1E#8, 0x54#8,
       0x1E#8, 0x55#8, 0x28#8, 0x56#8, 0x28#8, 0x57#8, 0x32#8, 0x58#8])) (fun t =>
      t.outMem == cellsFrom 0
        [0x51#8, 0x52#8, 0x53#8, 0x54#8, 0x55#8, 0x56#8, 0x57#8, 0x58#8, 0x5F#8, 0x3C#8, 0x19#8, 0x2D#8] &&
      t.regRead 0x18 == 12#32 && t.regRead 0x04 == 0x006#32 && t.regRead 0x20 == 1#32) = true := by decide

/-- P3: YV12 to YUY2 at 2x4. -/
theorem test_conv_up :
    after (exec (.conv (.fmt .yv12) (.fmt .yuy2)) (loaded 2#16 4#16
      [0x61#8, 0x62#8, 0x63#8, 0x64#8, 0x65#8, 0x66#8, 0x67#8, 0x68#8, 0x0A#8, 0xC8#8, 0x80#8, 0x80#8])) (fun t =>
      t.outMem == cellsFrom 0
        [0x61#8, 0x00#8, 0x62#8, 0x80#8, 0x63#8, 0x32#8, 0x64#8, 0x80#8,
         0x65#8, 0xA0#8, 0x66#8, 0x80#8, 0x67#8, 0xDB#8, 0x68#8, 0x80#8] &&
      t.regRead 0x20 == 3#32) = true := by decide

/-! ## Faults and host accesses, one step each -/

/-- V-FLT: an illegal word latched. -/
theorem test_illegal_word :
    after (step (issued (loaded 16#16 16#16 []) 0x00001002#32)) (fun t =>
      t.regRead 0x04 == 0x100#32 && t.regRead 0x1C == 0x1002#32) = true := by decide

/-- V-FLT: 18x20 with IN_LEN 539 (W16 set by the passed check), and the over-capacity 64x64. -/
theorem test_size_and_capacity :
    after (exec (.dec (.fmt .yv12)) { loaded 18#16 20#16 [] with inLen := 539#32 }) (fun t =>
      t.regRead 0x04 == 0x404#32) = true ∧
    after (exec (.dec (.fmt .yv12)) { loaded 64#16 64#16 [] with inLen := 6144#32 }) (fun t =>
      t.regRead 0x04 == 0x300#32) = true := by decide

/-- V-HAZ: WIDTH written while busy is discarded, and STATUS then reads 0x009. -/
theorem test_busy_write_discarded :
    after (step { issued (loaded 4#16 2#16 []) 0x106#32 with turns := [.host (.write .reg 0x0C 4 8#32)] }) (fun t =>
      t.regRead 0x0C == 4#32 && t.regRead 0x04 == 0x009#32) = true := by decide

/-- V-RST: a soft reset in any phase; every register then reads 0. -/
theorem test_soft_reset :
    after (step { busyState with turns := [.host (.write .reg 0x08 4 0x80000000#32)] }) (fun t =>
      [0x00, 0x04, 0x08, 0x0C, 0x10, 0x14, 0x18, 0x1C, 0x20, 0x24, 0x28].map t.regRead == List.replicate 11 0#32)
      = true := by decide

/-- 20_memory.md R62: accesses of another shape are refused, by name. -/
theorem test_misshapen :
    (match hostAccess (.read .reg 0x02 4) State.reset with
      | .refused r => r == .regAccessMisshapen | .next _ => false | .fault _ => false) = true ∧
    (match hostAccess (.write .inBuf 0 2 0#32) State.reset with
      | .refused r => r == .bufferAccessNotByte | .next _ => false | .fault _ => false) = true ∧
    (match hostAccess (.read .outBuf 4096 1) State.reset with
      | .refused r => r == .bufferOffsetBeyondCap | .next _ => false | .fault _ => false) = true := by decide

/-! ## Witnesses: the hypotheses of each statement, met together -/

theorem witness_EncodedCommandsDecodeBack :
    (Instr.layout (.unlisted 15)).wellFormed = true ∧ (Instr.dec (.unlisted 6)).wellFormed = true ∧
    (Instr.enc (.fmt .y422)).wellFormed = true ∧ Instr.up420.wellFormed = true ∧
    (Instr.conv (.unlisted 15) (.fmt .yv12)).wellFormed = true := by decide

theorem witness_DecodedWordsEncodeBack : decode 0x00000F66#32 = .command (.conv (.unlisted 6) (.unlisted 15)) := by
  decide

theorem witness_DecodeSelectsTheTableRow :
    0x000000F1#32 &&& 0xFFFFFF0F#32 = 0x00000001#32 ∧ 0x00000052#32 &&& 0xFFFFFF0F#32 = 0x00000002#32 ∧
    0x00000063#32 &&& 0xFFFFFF0F#32 = 0x00000003#32 ∧ 0x00000004#32 &&& 0xFFFFFFFF#32 = 0x00000004#32 ∧
    0x00000005#32 &&& 0xFFFFFFFF#32 = 0x00000005#32 ∧ 0x00000FF6#32 &&& 0xFFFFF00F#32 = 0x00000006#32 ∧
    (∃ r, decode 0x00000104#32 = .illegal r) ∧ (∃ r, decode 0x80000006#32 = .illegal r) := by
  exact ⟨by decide, by decide, by decide, by decide, by decide, by decide, ⟨_, rfl⟩, ⟨_, rfl⟩⟩

theorem witness_StepRunsTheLatchedCommand :
    EngineTurn busyState ∧ busyState.phase = .busy ∧ decode busyState.cmdl = .command (.enc (.fmt .iyuv)) ∧
    EngineTurn { busyState with turns := [.engine, .hardReset] } ∧
    decodeTableWord 8 0x13 = some (.enc (.fmt .iyuv)) ∧ decodeTableWord 32 0x13 = some (.enc (.fmt .iyuv)) :=
  ⟨.inl rfl, rfl, by decide, .inr rfl, by decide, by decide⟩

theorem witness_IdleEngineDoesNothing :
    EngineTurn State.reset ∧ State.reset.phase = .idle ∧ EngineTurn { State.reset with turns := [.engine] } :=
  ⟨.inl rfl, rfl, .inr rfl⟩

theorem witness_IllegalWordTakesTheFault :
    EngineTurn (issued State.reset 0x00000100#32) ∧ (issued State.reset 0x00000100#32).phase = .busy ∧
    decode (issued State.reset 0x00000100#32).cmdl = .illegal .unassignedOpcode := ⟨.inl rfl, rfl, by decide⟩

/-- Both sides of the checks: a fault of each kind, and none. -/
theorem witness_ChecksDecideInOrder :
    decode 0x00000007#32 = .illegal .unassignedOpcode ∧ decode 0x00000004#32 = .command .dn422 ∧
    firstFault (.conv (.fmt .yv12) (.unlisted 6)) State.reset = some .unsupportedFormat ∧
    firstFault .dn422 State.reset = some .dimError ∧
    firstFault (.dec (.fmt .uyvy)) (loaded 2#16 1#16 []) = some .sizeMismatch ∧
    firstFault (.enc (.fmt .uyvy)) (loaded 2#16 1#16 []) = some .frameError ∧
    firstFault (.layout (.fmt .uyvy)) (loaded 2#16 1#16 []) = none := by decide

/-- Width 0, height 1 in 4:2:0, and the destination family alone failing. -/
theorem witness_BadDimensionsTakeDimError :
    (¬ Dims (loaded 0#16 2#16 []) (fam .uyvy)) ∧ (¬ Dims (loaded 2#16 1#16 []) .f420) ∧
    (¬ Dims (loaded 32#16 66#16 []) .f422) ∧
    Dims (loaded 2#16 1#16 []) (fam .uyvy) ∧
    (¬ (Dims (loaded 2#16 1#16 []) (fam .uyvy) ∧ Dims (loaded 2#16 1#16 []) (fam .yv12))) := by
  unfold Dims LegalDims
  decide

/-- One byte short and one byte long. -/
theorem witness_WrongLengthTakesSizeMismatch :
    (loaded 2#16 2#16 [1#8, 2#8, 3#8, 4#8, 5#8]).inLen.toNat ≠ fsize .yv12 2 2 ∧
    (loaded 2#16 2#16 [1#8, 2#8, 3#8, 4#8, 5#8, 6#8, 7#8]).inLen.toNat ≠ fsize .yv12 2 2 ∧
    Dims (loaded 2#16 2#16 []) (fam .yv12) ∧ Dims (loaded 2#16 2#16 []) (fam .y422) := by
  unfold Dims LegalDims
  decide

/-- No Frame; a Frame on the other grid; a Frame of another width. -/
theorem witness_UnfitFrameTakesFrameError :
    Dims (loaded 2#16 2#16 []) (fam .yv12) ∧ (¬ FrameFits (loaded 2#16 2#16 []) (fam .yv12)) ∧
    Dims (framed .f420 2#16 2#16 [] [] []) .f420 ∧ (¬ FrameFits (framed .f420 2#16 2#16 [] [] []) .f422) ∧
    (¬ FrameFits { framed .f420 4#16 2#16 [] [] [] with width := 2#16 } .f420) := by
  unfold Dims LegalDims FrameFits
  decide

theorem witness_FaultsArePrecise :
    (∃ t, runWord 0x00000005#32 (loaded 2#16 2#16 []) = .next t ∧ t.err = some .frameError) ∧
    (∃ t, runWord 0x00000014#32 (loaded 2#16 2#16 []) = .next t ∧ t.err = some .illegalCommand) ∧
    (loaded 2#16 2#16 []).err = none ∧ (loaded 2#16 2#16 []).done = false :=
  ⟨⟨_, rfl, rfl⟩, ⟨_, rfl, rfl⟩, rfl, rfl⟩

theorem witness_OnlyResetClearsTheFault :
    let s := { faultState with turns := [.host (.write .reg 0x00 4 0x00000002#32)] }
    LatchSound s ∧ s.err = some .dimError ∧ (∃ t, step s = .next t) ∧ ¬ ResetTurn s := by
  refine ⟨⟨by decide, by decide, by decide⟩, rfl, ⟨_, rfl⟩, ?_⟩
  rintro (h | ⟨v, -, h⟩)
  · exact absurd h (by decide)
  · injection h with h
    injection h with h
    injection h with _ h
    exact absurd h (by decide)

/-- The smallest frame of each family, and the largest the reset capacity takes. -/
theorem witness_LayoutStoresTheDescriptor :
    Config.capLegal (loaded 2#16 1#16 []).cap = true ∧ Dims (loaded 2#16 1#16 []) (fam .uyvy) ∧
    Dims (loaded 2#16 2#16 []) (fam .iyuv) ∧ Dims (loaded 32#16 64#16 []) (fam .y422) := by
  unfold Dims LegalDims
  decide

theorem witness_DecGathersTheFrame :
    Dims (loaded 2#16 1#16 [1#8, 2#8, 3#8, 4#8]) (fam .yuy2) ∧
    (loaded 2#16 1#16 [1#8, 2#8, 3#8, 4#8]).inLen.toNat = fsize .yuy2 2 1 := by
  unfold Dims LegalDims
  decide

theorem witness_EncScattersTheFrame :
    let s := framed .f422 2#16 1#16 [1#8, 2#8] [3#8] [4#8]
    Config.capLegal s.cap = true ∧ Dims s (fam .yvyu) ∧ FrameFits s (fam .yvyu) := by
  unfold Dims LegalDims FrameFits
  decide

theorem witness_Dn422Downsamples :
    let s := framed .f422 2#16 2#16 [1#8, 2#8, 3#8, 4#8] [10#8, 200#8] [0#8, 255#8]
    Dims s .f420 ∧ FrameFits s .f422 := by
  unfold Dims LegalDims FrameFits
  decide

theorem witness_Up420Upsamples :
    let s := framed .f420 2#16 2#16 [1#8, 2#8, 3#8, 4#8] [10#8] [255#8]
    Dims s .f420 ∧ FrameFits s .f420 := by
  unfold Dims LegalDims FrameFits
  decide

theorem witness_ConvConvertsTheFrame :
    let s := loaded 2#16 2#16 [1#8, 2#8, 3#8, 4#8, 5#8, 6#8]
    Config.capLegal s.cap = true ∧ Dims s (fam .iyuv) ∧ Dims s (fam .uyvy) ∧ s.inLen.toNat = fsize .iyuv 2 2 := by
  unfold Dims LegalDims
  decide

theorem witness_EveryCommandAnswersNext :
    (∃ t, exec (.layout (.fmt .yv12)) State.reset = .next t) ∧ (∃ t, exec (.dec (.fmt .uyvy)) busyState = .next t) ∧
    (∃ t, exec (.enc (.fmt .iyuv)) busyState = .next t) ∧ (∃ t, exec .dn422 busyState = .next t) ∧
    (∃ t, exec .up420 busyState = .next t) ∧ (∃ t, exec (.conv (.fmt .yv12) (.fmt .y422)) busyState = .next t) :=
  ⟨⟨_, rfl⟩, ⟨_, rfl⟩, ⟨_, rfl⟩, ⟨_, rfl⟩, ⟨_, rfl⟩, ⟨_, rfl⟩⟩

theorem witness_AccessorsPartitionTheFrame :
    LegalDims 4 (fam .y422) 2 1 ∧ LegalDims 8 (fam .yv12) 2 2 ∧ LegalDims 4096 (fam .uyvy) 32 64 := by
  unfold LegalDims
  decide

/-- Planes and a raw frame with an unspecified sample and an unspecified byte among them. -/
theorem witness_CodecRoundTrips :
    LegalDims 4 (fam .uyvy) (2#16).toNat (1#16).toNat ∧ ([some 1#8, none] : Plane).length = (layout .uyvy 2 1).y.count ∧
    ([some 3#8] : Plane).length = (layout .uyvy 2 1).cb.count ∧
    ([some 4#8] : Plane).length = (layout .uyvy 2 1).cr.count ∧
    Memory.wf [(0, 3#8), (1, 1#8), (2, 4#8)] = true ∧
    (∀ k, fsize .uyvy 2 1 ≤ k → Memory.read [(0, 3#8), (1, 1#8), (2, 4#8)] k = none) := by
  refine ⟨by unfold LegalDims; decide, by decide, by decide, by decide, by decide, ?_⟩
  intro k hk
  have h4 : 4 ≤ k := hk
  have h0 : ¬ 0 = k := by omega
  have h1 : ¬ 1 = k := by omega
  have h2 : ¬ 2 = k := by omega
  simp [Memory.read, h0, h1, h2]

/-- A CONV that completes and one that faults, run by the host's write and the engine's turn. -/
theorem witness_ConvEqualsTheSequence :
    let s := loaded 2#16 1#16 [1#8, 2#8, 3#8, 4#8]
    (Tag.fmt .uyvy).wellFormed = true ∧ (Tag.unlisted 15).wellFormed = true ∧ s.phase = .idle ∧ s.err = none ∧
    (∃ t, runTurns s (commandTurns [.conv (.fmt .uyvy) (.fmt .yvyu)]) = .next t ∧ t.err = none) ∧
    (∃ t, runTurns s (commandTurns [.conv (.fmt .uyvy) (.unlisted 15)]) = .next t ∧ t.err ≠ none) :=
  ⟨rfl, rfl, rfl, rfl, ⟨_, rfl, rfl⟩, ⟨_, rfl, by decide⟩⟩

theorem witness_SameFamilyConversionIsLossless :
    let s := loaded 2#16 1#16 [1#8, 2#8, 3#8, 4#8]
    fam .uyvy = fam .y422 ∧ Dims s (fam .uyvy) ∧ s.inLen.toNat = fsize .uyvy 2 1 ∧ Config.capLegal s.cap = true ∧
    ∃ t, exec (.conv (.fmt .uyvy) (.fmt .y422)) s = .next t ∧
      ∃ v, exec (.conv (.fmt .y422) (.fmt .uyvy)) { t with inMem := t.outMem, inLen := t.outLen } = .next v :=
  ⟨rfl, by unfold Dims LegalDims; decide, rfl, rfl, _, rfl, _, rfl⟩

/-- Two states that hold different Frames. -/
theorem witness_ConvIgnoresTheOldFrame :
    let s := loaded 2#16 1#16 [1#8, 2#8, 3#8, 4#8]
    let s' := { s with frame := ⟨true, .f420, 2#16, 2#16, [], [], []⟩, outLen := 9#32 }
    s.cap = s'.cap ∧ s.width = s'.width ∧ s.height = s'.height ∧ s.inLen = s'.inLen ∧ s.inst = s'.inst ∧
    s.draws = s'.draws ∧
    s.frame ≠ s'.frame ∧ (∀ k < fsize .yuy2 2 1, s.inMem.read k = s'.inMem.read k) ∧
    (∃ t, exec (.conv (.fmt .yuy2) (.fmt .uyvy)) s = .next t) ∧
    (∃ t, exec (.conv (.fmt .yuy2) (.fmt .uyvy)) s' = .next t) ∧
    firstFault (.conv (.fmt .yuy2) (.fmt .uyvy)) s = none :=
  ⟨rfl, rfl, rfl, rfl, rfl, rfl, by decide, fun _ _ => rfl, ⟨_, rfl⟩, ⟨_, rfl⟩, by decide⟩

/-- A plane of one row (`down` then gives none, `up` gives two). -/
theorem witness_ConstantChromaStays :
    1 ≤ 1 ∧ down (List.replicate (1 * 1) (some 77#8)) 1 1 0 0 = [] ∧
    up (List.replicate (1 * 1) (some 77#8)) 1 1 0 0 = [some 77#8, some 77#8] := by decide

/-- The last row of one row; the first row from which the weights of eleven rows apply, in a plane just tall enough. -/
theorem witness_SixthTapRepeatsTheFifth :
    let x : Nat → Byte := fun k => if k = 6 then 1#8 else 0#8
    (0 < 1 ∧ 0 < 1 ∧ 1 ≤ 0 + 6) ∧ (0 < 7 ∧ 0 + 6 ≤ 7 - 1 ∧ x (5 * 1 + 0) ≠ x (6 * 1 + 0)) ∧
    (5 < 11 ∧ 5 ≤ 5 ∧ 5 + 6 ≤ 11) := by decide

theorem witness_PhasesMirrorEachOther : 1 < 2 ∧ 3 < 4 := by decide

/-- Two planes of two columns that differ in column 1 only. -/
theorem witness_ColumnsAreIndependent :
    let x : Nat → Nat → Byte := fun _ _ => 0#8
    let x' : Nat → Nat → Byte := fun _ k => if k % 2 = 1 then 255#8 else 0#8
    (∀ n : Nat, ∀ r < 3, x n (r * 2 + 0) = x' n (r * 2 + 0)) ∧ x 0 1 ≠ x' 0 1 ∧ 2 < 3 ∧ 5 < 2 * 3 :=
  ⟨fun _ r _ => by simp, by decide, by decide, by decide⟩

theorem witness_CmdWriteIssuesOrIsDiscarded :
    State.reset.phase = .idle ∧ State.reset.err = none ∧ (¬ (busyState.phase = .idle ∧ busyState.err = none)) ∧
    (¬ (faultState.phase = .idle ∧ faultState.err = none)) := by decide

theorem witness_CtrlStoresEnablesOrResets :
    (0x7FFFFFFF#32).getLsbD 31 = false ∧ (0x80000000#32).getLsbD 31 = true := by decide

theorem witness_DimensionAndLengthRegisters :
    State.reset.phase = .idle ∧ busyState.phase = .busy ∧ ∃ t, runWord 0x00000106#32 busyState = .next t :=
  ⟨rfl, rfl, _, rfl⟩

theorem witness_ReadOnlyWritesAreIgnored :
    0x18 % 4 = 0 ∧ 0x18 ≤ 0x18 ∧ 0x50 % 4 = 0 ∧ 0x18 ≤ 0x50 ∧ 0x54 % 4 = 0 ∧ 0x18 ≤ 0x54 ∧ 0x50 < 0x54 := by decide

theorem witness_ReadOnlyRegistersRead :
    busyState.frame.fv = true ∧ State.reset.frame.fv = false ∧
    (framed .f422 2#16 1#16 [1#8, 2#8] [3#8] [4#8]).frame.ffam = .f422 := by decide

theorem witness_MisshapenAccessesAreRefused :
    (4 = 4 ∧ 0x50 % 4 = 0) ∧ (¬ (4 = 4 ∧ 0x51 % 4 = 0)) ∧ (¬ (2 = 4 ∧ 0x50 % 4 = 0)) ∧
    (1 = 1 ∧ 4095 < State.reset.cap) ∧ (¬ (1 = 1 ∧ 4096 < State.reset.cap)) ∧ (¬ (4 = 1 ∧ 0 < State.reset.cap)) := by
  decide

theorem witness_ReadsHaveNoSideEffect :
    (∃ t, hostAccess (.read .reg 0x04 4) busyState = .next t) ∧
    (∃ t, hostAccess (.read .inBuf 4095 1) State.reset = .next t) ∧
    (∃ t, hostAccess (.read .outBuf 0 1) busyState = .next t) ∧
    (∃ t, hostAccess (.read .inBuf 1 1) { busyState with phase := .idle } = .next t) ∧
    ({ busyState with phase := .idle } : State).inMem.read 1 = some 2#8 ∧ 0x50 % 4 = 0 :=
  ⟨⟨_, rfl⟩, ⟨_, rfl⟩, ⟨_, rfl⟩, ⟨_, rfl⟩, by decide, by decide⟩

theorem witness_InBufferAccess :
    0 < State.reset.cap ∧ 4095 < State.reset.cap ∧ State.reset.phase = .idle ∧ busyState.phase = .busy ∧
    (loaded 2#16 1#16 [9#8]).phase = .idle ∧ (loaded 2#16 1#16 [9#8]).inMem.read 0 = some 9#8 := by decide

theorem witness_OutBufferAccess :
    let s := { busyState with phase := .idle }
    0 < s.cap ∧ s.phase = .idle ∧ 0 < s.outLen.toNat ∧ s.outMem.read 0 = some 7#8 := by decide

theorem witness_BusyEngineIsUndisturbed :
    let s := { busyState with turns := [.host (.write .reg 0x0C 4 8#32)] }
    s.phase = .busy ∧ (∃ t, step s = .next t) ∧ (¬ EngineTurn s) ∧ ¬ ResetTurn s := by
  refine ⟨rfl, ⟨_, rfl⟩, ?_, ?_⟩
  · rintro (h | h) <;> exact absurd h (by decide)
  · rintro (h | ⟨v, -, h⟩)
    · exact absurd h (by decide)
    · injection h with h
      injection h with h
      injection h with _ h
      exact absurd h (by decide)

/-- A command in its turn, and a write to STATUS that leaves bit 2 clear. -/
theorem witness_WarningIsSticky :
    (busyState.w16 = true ∧ (∃ t, step busyState = .next t) ∧ (¬ ResetTurn busyState) ∧ ¬ StatusClearTurn busyState 2) ∧
    ∃ t, step { busyState with turns := [.host (.write .reg 0x04 4 0x0000000A#32)] } = .next t ∧ t.w16 = true := by
  refine ⟨⟨rfl, ⟨_, rfl⟩, ?_, ?_⟩, _, rfl, rfl⟩
  · rintro (h | ⟨v, -, h⟩) <;> exact absurd h (by simp [busyState, issued, framed, State.issue, State.reset, State.resetWith])
  · rintro ⟨v, -, h⟩
    exact absurd h (by simp [busyState, issued, framed, State.issue, State.reset, State.resetWith])

theorem witness_SoftResetEqualsHardReset : (0x80000003#32).getLsbD 31 = true := by decide

/-- A state that no reset leaves meets all four invariants, and its step answers a next state. -/
theorem witness_Invariants :
    BuffersSound busyState ∧ OutputSound busyState ∧ LatchSound busyState ∧ FrameSound busyState ∧
    Config.capLegal busyState.cap = true ∧ ∃ t, step busyState = .next t := by
  have hin : ∀ k b, busyState.inMem.read k = some b → k < busyState.cap := by
    intro k b h
    match k, h with
    | 0, _ => decide
    | 1, _ => decide
    | n + 2, h => simp [busyState, cellsFrom, Memory.read] at h
  have hout : ∀ k b, busyState.outMem.read k = some b → k < busyState.cap := by
    intro k b h
    match k, h with
    | 0, _ => decide
    | n + 1, h => simp [busyState, cellsFrom, Memory.read] at h
  refine ⟨⟨by decide, by decide, hin, hout⟩, ⟨by decide, ?_⟩, ⟨by decide, by decide, by decide⟩,
    ⟨by decide, by decide⟩, by decide, _, rfl⟩
  intro k
  match k with
  | 0 => decide
  | n + 1 => simp [busyState, cellsFrom, Memory.read]

theorem witness_CapacityIsFixed : ∃ t, step busyState = .next t := ⟨_, rfl⟩

theorem witness_LatchedCommandEnds : busyState.phase = .busy := rfl

/-- Two instances of different capacities. -/
theorem witness_InstancesShareNothing :
    let chip := chipReset [4096, 16]
    (∃ s t, chip[1]? = some s ∧ s.cap = 16 ∧ s.inst = 1 ∧ step s = .next t ∧ chipStep chip 1 = .next (chip.set 1 t)) ∧
    0 ≠ 1 := ⟨⟨_, _, rfl, rfl, rfl, rfl, rfl⟩, by decide⟩

end Sys2Proof.Tests
end

section
/-! SUPPORT. The parameters of an engine, its capacity and its number, stay through every operation (spec R6), and so
through every step. -/

namespace Sys2Proof.Machine

open Sys2Proof

/-- The parameters of an engine: `CAP` (spec R6) and its number on the chip (log entry 8). -/
def State.params (s : State) : Nat × Nat := (s.cap, s.inst)

theorem State.params_eq_iff {s t : State} : t.params = s.params ↔ t.cap = s.cap ∧ t.inst = s.inst := Prod.mk_inj

/-! The engine's commands. -/

/-- Faults, the warning and completion leave the parameters alone, so a checked command with an effect that does so
too keeps them, whichever check fails. -/
theorem State.runChecked_params {s t : State} {dims size frame : Bool} {effect : State → State}
    (h : s.runChecked dims size frame effect = .next t) (heff : ∀ u, (effect u).params = u.params) :
    t.params = s.params := by
  rcases State.runChecked_cases h with ⟨-, rfl⟩ | ⟨-, -, rfl⟩ | ⟨-, -, -, rfl⟩ | ⟨-, -, -, rfl⟩
  · rfl
  · rfl
  · rfl
  · exact heff s.noteW16

theorem State.resampleFor_params (s : State) (src dst : Family) : (s.resampleFor src dst).params = s.params := by
  cases src <;> cases dst <;> rfl

theorem State.convertFrame_params (s : State) (fs fd : PixelFormat) : (s.convertFrame fs fd).params = s.params :=
  (s.loadFrame fs).resampleFor_params (fam fs) (fam fd)

theorem exec_params {i : Instr} {s t : State} (h : exec i s = .next t) : t.params = s.params := by
  cases i with
  | layout fa =>
    cases fa with
    | fmt f => exact State.runChecked_params ((exec_layout f s).symm.trans h) fun _ => rfl
    | unlisted n => cases h; rfl
  | dec fa =>
    cases fa with
    | fmt f => exact State.runChecked_params ((exec_dec f s).symm.trans h) fun _ => rfl
    | unlisted n => cases h; rfl
  | enc fa =>
    cases fa with
    | fmt f => exact State.runChecked_params ((exec_enc f s).symm.trans h) fun _ => rfl
    | unlisted n => cases h; rfl
  | dn422 => exact State.runChecked_params ((exec_dn422 s).symm.trans h) fun _ => rfl
  | up420 => exact State.runChecked_params ((exec_up420 s).symm.trans h) fun _ => rfl
  | conv fa fb =>
    cases fa with
    | unlisted n => cases h; rfl
    | fmt fs =>
      cases fb with
      | unlisted n => cases h; rfl
      | fmt fd => exact State.runChecked_params ((exec_conv fs fd s).symm.trans h) fun u => u.convertFrame_params fs fd

theorem engineTurn_params {s t : State} (h : engineTurn s = .next t) : t.params = s.params := by
  rcases engineTurn_cases h with ⟨-, rfl⟩ | ⟨-, i, -, hexec⟩ | ⟨-, -, rfl⟩
  · rfl
  · exact exec_params hexec
  · rfl

/-! The host's accesses. -/

theorem State.writeCtrl_params (s : State) (v : Word) : (s.writeCtrl v).params = s.params := by
  unfold State.writeCtrl
  split <;> rfl

theorem State.writeCmd_params (s : State) (v : Word) : (s.writeCmd v).params = s.params := by
  unfold State.writeCmd
  split <;> rfl

theorem State.writeWidth_params (s : State) (v : Word) : (s.writeWidth v).params = s.params := by
  unfold State.writeWidth
  split <;> rfl

theorem State.writeHeight_params (s : State) (v : Word) : (s.writeHeight v).params = s.params := by
  unfold State.writeHeight
  split <;> rfl

theorem State.writeInLen_params (s : State) (v : Word) : (s.writeInLen v).params = s.params := by
  unfold State.writeInLen
  split <;> rfl

theorem State.writeIn_params (s : State) (k : Nat) (b : Byte) : (s.writeIn k b).params = s.params := by
  unfold State.writeIn
  split <;> rfl

theorem State.regWrite_params (s : State) (off : Nat) (v : Word) : (s.regWrite off v).params = s.params := by
  rcases s.regWrite_cases off v with h | h | h | h | h | h | h <;> rw [h]
  · exact s.writeCtrl_params v
  · rfl
  · exact s.writeCmd_params v
  · exact s.writeWidth_params v
  · exact s.writeHeight_params v
  · exact s.writeInLen_params v

theorem State.replyByte_params (s : State) (held : Option Byte) (mk : Byte → Reply) :
    (s.replyByte held mk).params = s.params := by
  rw [State.replyByte_frame]
  rfl

theorem hostAccess_params {a : HostAccess} {s t : State} (h : hostAccess a s = .next t) : t.params = s.params := by
  rcases hostAccess_cases h with ⟨off, -, rfl⟩ | ⟨off, v, -, -, rfl⟩ | ⟨k, -, -, rfl⟩ | ⟨k, v, -, -, rfl⟩ |
    ⟨k, -, -, rfl⟩ | ⟨k, v, -, -, rfl⟩
  · rfl
  · exact s.regWrite_params off v
  · exact s.replyByte_params _ _
  · exact s.writeIn_params k _
  · exact s.replyByte_params _ _
  · rfl

/-! Every step. -/

theorem step_params {s t : State} (h : step s = .next t) : t.params = s.params := by
  rcases step_cases h with ⟨-, hturn⟩ | ⟨a, -, hacc⟩ | ⟨-, rfl⟩
  · exact (engineTurn_params hturn).trans rfl
  · exact (hostAccess_params hacc).trans rfl
  · rfl

/-- Settles O53: whoever's turn it is, the step keeps both parameters of the engine. -/
theorem capacityIsFixed : Obligations.CapacityIsFixed := by
  intro s t h
  exact State.params_eq_iff.1 (step_params h)

end Sys2Proof.Machine
end

section
/-! SUPPORT. What a step can do, said once: the effect of a command whose checks pass (`CommandEffect`), the end of any
command (`CommandEnd`), and everything one turn can do to the state (`Move`). The invariants and the ends of commands
are case analyses of these three relations. -/

namespace Sys2Proof.Machine

open Sys2Proof

/-! ## Commands -/

/-- The effects of the commands, each with what its passed checks say of the state it works on (spec R117, R132, R133,
R161, R162, R181 with R198). -/
inductive CommandEffect (s : State) : State → Prop where
  | layout (f : PixelFormat) (hd : s.dimsOk (fam f) = true) : CommandEffect s (s.storeLayout f)
  | dec (f : PixelFormat) (hd : s.dimsOk (fam f) = true) (hz : s.sizeOk f = true) : CommandEffect s (s.loadFrame f)
  | enc (f : PixelFormat) (hd : s.dimsOk (fam f) = true) (hf : s.frameOk (fam f) = true) :
      CommandEffect s (s.storeFrame f)
  | dn422 (hd : s.dimsOk .f420 = true) (hf : s.frameOk .f422 = true) : CommandEffect s s.downFrame
  | up420 (hd : s.dimsOk .f420 = true) (hf : s.frameOk .f420 = true) : CommandEffect s s.upFrame
  | conv (fs fd : PixelFormat) (hs : s.dimsOk (fam fs) = true) (hd : s.dimsOk (fam fd) = true)
      (hz : s.sizeOk fs = true) : CommandEffect s (s.convertFrame fs fd)

/-- How a command ends (spec R200, R207): a fault before or after the warning is noted, or its effect and completion. -/
inductive CommandEnd (s : State) : State → Prop where
  | fault (k : FaultKind) : CommandEnd s (s.raise k)
  | faultWarned (k : FaultKind) : CommandEnd s (s.noteW16.raise k)
  | complete {u : State} (heff : CommandEffect s.noteW16 u) : CommandEnd s u.complete

/-- The frame of resampling: the Frame and the counter of free readings. -/
theorem State.resampleFor_frame (s : State) (F G : Family) :
    s.resampleFor F G = { s with frame := (s.resampleFor F G).frame, draws := (s.resampleFor F G).draws } := by
  cases F <;> cases G <;> rfl

theorem State.resampleFor_w (s : State) (F G : Family) : (s.resampleFor F G).w = s.w := by
  cases F <;> cases G <;> rfl

theorem State.resampleFor_h (s : State) (F G : Family) : (s.resampleFor F G).h = s.h := by
  cases F <;> cases G <;> rfl

/-- The frame of every command: its effect writes the layout registers, the Frame, OUT, OUT_LEN and the counter of free
readings, and nothing else. -/
theorem CommandEffect.frame_eq {s u : State} (h : CommandEffect s u) :
    u = { s with ly := u.ly, frame := u.frame, outMem := u.outMem, outLen := u.outLen, draws := u.draws } := by
  cases h with
  | conv fs fd => rw [State.convertFrame, State.resampleFor_frame]; rfl
  | _ => rfl

theorem CommandEffect.err_eq {s u : State} (h : CommandEffect s u) : u.err = s.err :=
  (congrArg State.err h.frame_eq).trans rfl

theorem CommandEffect.errinfo_eq {s u : State} (h : CommandEffect s u) : u.errinfo = s.errinfo :=
  (congrArg State.errinfo h.frame_eq).trans rfl

/-- The frame of a command however it ends: beside what its effect writes, only the phase, the flags and the fault
latch. -/
theorem CommandEnd.frame_eq {s t : State} (h : CommandEnd s t) :
    t = { s with
      phase := t.phase, done := t.done, w16 := t.w16, err := t.err, errinfo := t.errinfo
      ly := t.ly, frame := t.frame, outMem := t.outMem, outLen := t.outLen, draws := t.draws } := by
  cases h with
  | fault k => rfl
  | faultWarned k => rfl
  | complete heff => rw [heff.frame_eq]; rfl

/-- The shared checks end as `CommandEnd` says when the effect, run after passed checks, is one of a command. -/
theorem State.runChecked_end {s t : State} {dims size frame : Bool} {effect : State → State}
    (h : s.runChecked dims size frame effect = .next t)
    (heff : dims = true → size = true → frame = true → CommandEffect s.noteW16 (effect s.noteW16)) :
    CommandEnd s t := by
  rcases State.runChecked_cases h with ⟨-, rfl⟩ | ⟨-, -, rfl⟩ | ⟨-, -, -, rfl⟩ | ⟨hd, hz, hf, rfl⟩
  · exact .fault _
  · exact .faultWarned _
  · exact .faultWarned _
  · exact .complete (heff hd hz hf)

/-- Every command ends as `CommandEnd` says. -/
theorem exec_end {i : Instr} {s t : State} (h : exec i s = .next t) : CommandEnd s t := by
  cases i with
  | layout fa =>
    cases fa with
    | fmt f => exact State.runChecked_end ((exec_layout f s).symm.trans h) fun hd _ _ => .layout f hd
    | unlisted n => cases h; exact .fault _
  | dec fa =>
    cases fa with
    | fmt f => exact State.runChecked_end ((exec_dec f s).symm.trans h) fun hd hz _ => .dec f hd hz
    | unlisted n => cases h; exact .fault _
  | enc fa =>
    cases fa with
    | fmt f => exact State.runChecked_end ((exec_enc f s).symm.trans h) fun hd _ hf => .enc f hd hf
    | unlisted n => cases h; exact .fault _
  | dn422 => exact State.runChecked_end ((exec_dn422 s).symm.trans h) fun hd _ hf => .dn422 hd hf
  | up420 => exact State.runChecked_end ((exec_up420 s).symm.trans h) fun hd _ hf => .up420 hd hf
  | conv fa fb =>
    cases fa with
    | unlisted n => cases h; exact .fault _
    | fmt fs =>
      cases fb with
      | unlisted n => cases h; exact .fault _
      | fmt fd =>
        refine State.runChecked_end ((exec_conv fs fd s).symm.trans h) fun hd hz _ => ?_
        obtain ⟨hs, hd⟩ := Bool.and_eq_true_iff.1 hd
        exact .conv fs fd hs hd hz

/-- A latched word, legal or not, ends as a command does (spec R191). -/
theorem runWord_end {w : Word} {s t : State} (h : runWord w s = .next t) : CommandEnd s t := by
  unfold runWord at h
  split at h
  · exact exec_end h
  · cases h; exact .fault _

/-! ## Turns -/

/-- Everything one turn can do to a state, the schedule aside (spec R19, R25, R65 to R69, R220). -/
inductive Move (s : State) : State → Prop where
  /-- The idle engine, or a write that is ignored. -/
  | stay : Move s s
  /-- The engine ends the latched command. -/
  | command {t : State} (hp : s.phase = .busy) (hend : CommandEnd s t) : Move s t
  /-- A reset, by the input or by CTRL. -/
  | reset : Move s s.resetEngine
  /-- A host read. -/
  | read (rs : List Reply) (n : Nat) : Move s { s with replies := rs, draws := n }
  /-- A write to CTRL that is no reset. -/
  | enables (d e : Bool) : Move s { s with ieDone := d, ieErr := e }
  /-- A write to STATUS. -/
  | clear (v : Word) : Move s (s.writeStatus v)
  /-- A write to CMD that issues. -/
  | issue (v : Word) (hp : s.phase = .idle) (he : s.err = none) : Move s (s.issue v)
  /-- A write that is discarded. -/
  | discard : Move s s.discardWrite
  /-- A write to WIDTH, HEIGHT or IN_LEN. -/
  | settings (w h : Dim) (len : Word) : Move s { s with width := w, height := h, inLen := len }
  /-- A write to IN. -/
  | store (k : Nat) (b : Byte) (hk : k < s.cap) : Move s { s with inMem := s.inMem.write k b }

theorem State.writeCtrl_move (s : State) (v : Word) : Move s (s.writeCtrl v) := by
  unfold State.writeCtrl
  split
  · exact .reset
  · exact .enables _ _

theorem State.writeCmd_move (s : State) (v : Word) : Move s (s.writeCmd v) := by
  unfold State.writeCmd
  split
  · next h => exact .issue v h.1 h.2
  · exact .discard

theorem State.writeWidth_move (s : State) (v : Word) : Move s (s.writeWidth v) := by
  unfold State.writeWidth
  split
  · exact .settings _ s.height s.inLen
  · exact .discard

theorem State.writeHeight_move (s : State) (v : Word) : Move s (s.writeHeight v) := by
  unfold State.writeHeight
  split
  · exact .settings s.width _ s.inLen
  · exact .discard

theorem State.writeInLen_move (s : State) (v : Word) : Move s (s.writeInLen v) := by
  unfold State.writeInLen
  split
  · exact .settings s.width s.height v
  · exact .discard

theorem State.writeIn_move (s : State) {k : Nat} (b : Byte) (hk : k < s.cap) : Move s (s.writeIn k b) := by
  unfold State.writeIn
  split
  · exact .store k b hk
  · exact .discard

theorem State.regWrite_move (s : State) (off : Nat) (v : Word) : Move s (s.regWrite off v) := by
  rcases s.regWrite_cases off v with h | h | h | h | h | h | h <;> rw [h]
  · exact .stay
  · exact s.writeCtrl_move v
  · exact .clear v
  · exact s.writeCmd_move v
  · exact s.writeWidth_move v
  · exact s.writeHeight_move v
  · exact s.writeInLen_move v

theorem State.replyByte_move (s : State) (held : Option Byte) (mk : Byte → Reply) :
    Move s (s.replyByte held mk) := by
  rw [State.replyByte_frame]
  exact .read _ _

theorem hostAccess_move {a : HostAccess} {s t : State} (h : hostAccess a s = .next t) : Move s t := by
  rcases hostAccess_cases h with ⟨off, -, rfl⟩ | ⟨off, v, -, -, rfl⟩ | ⟨k, -, -, rfl⟩ | ⟨k, v, -, hk, rfl⟩ |
    ⟨k, -, -, rfl⟩ | ⟨k, v, -, -, rfl⟩
  · exact .read _ s.draws
  · exact s.regWrite_move off v
  · exact s.replyByte_move _ _
  · exact s.writeIn_move _ hk
  · exact s.replyByte_move _ _
  · exact .stay

theorem engineTurn_move {s t : State} (h : engineTurn s = .next t) : Move s t := by
  rcases engineTurn_cases h with ⟨-, rfl⟩ | ⟨hp, i, -, hexec⟩ | ⟨hp, -, rfl⟩
  · exact .stay
  · exact .command hp (exec_end hexec)
  · exact .command hp (.fault _)

/-- Every step takes its turn off the schedule and makes a move. -/
theorem step_move {s t : State} (h : step s = .next t) : Move { s with turns := s.turns.tail } t := by
  rcases step_cases h with ⟨-, hturn⟩ | ⟨a, -, hacc⟩ | ⟨-, rfl⟩
  · exact engineTurn_move hturn
  · exact hostAccess_move hacc
  · exact .reset

end Sys2Proof.Machine
end

section
/-! SUPPORT. The four invariants: each is kept by every move, so by every step; and how every command ends. -/

namespace Sys2Proof.Machine

open Sys2Proof Sys2Proof.Safety

/-! ## The flags and the fault latch -/

theorem CommandEnd.phase_idle {s t : State} (h : CommandEnd s t) : t.phase = .idle := by
  cases h <;> rfl

/-- A command either completes, with the fault latch as it was, or latches a fault, with DONE as it was (spec R200,
R207). -/
theorem CommandEnd.done_or_fault {s t : State} (h : CommandEnd s t) :
    (t.done = true ∧ t.err = s.err ∧ t.errinfo = s.errinfo) ∨
    (∃ k, t.err = some k ∧ t.errinfo = s.cmdl ∧ t.done = s.done) := by
  cases h with
  | fault k => exact .inr ⟨k, rfl, rfl, rfl⟩
  | faultWarned k => exact .inr ⟨k, rfl, rfl, rfl⟩
  | complete heff => exact .inl ⟨rfl, heff.err_eq, heff.errinfo_eq⟩

/-- Settles O8: the command answers a next state, and how it ends is one of the three of `CommandEnd`. -/
theorem everyCommandEndsIdle : Obligations.EveryCommandEndsIdle := by
  intro i s
  obtain ⟨t, h⟩ := exec_next i s
  exact ⟨t, h, (exec_end h).phase_idle, (exec_end h).done_or_fault⟩

/-- A command that ends was latched with no fault and no DONE, so it leaves one of the two and not both. -/
theorem CommandEnd.latchSound {s t : State} (h : CommandEnd s t) (hp : s.phase = .busy) (hs : LatchSound s) :
    LatchSound t := by
  obtain ⟨hbusy, -, hinfo⟩ := hs
  obtain ⟨herr, hdone⟩ := hbusy hp
  have hidle : t.phase ≠ .busy := by simp [h.phase_idle]
  rcases h.done_or_fault with ⟨-, he, hi⟩ | ⟨k, he, -, hd⟩
  · have hnone : t.err = none := he.trans herr
    exact ⟨fun hb => absurd hb hidle, fun hn => absurd hnone hn, fun _ => hi.trans (hinfo herr)⟩
  · exact ⟨fun hb => absurd hb hidle, fun _ => hd.trans hdone, fun hn => absurd (he.symm.trans hn) (by simp)⟩

theorem State.resetEngine_latchSound (s : State) : LatchSound s.resetEngine :=
  ⟨fun hb => absurd hb (by simp), fun _ => rfl, fun _ => rfl⟩

theorem Move.latchSound {s t : State} (h : Move s t) (hs : LatchSound s) : LatchSound t := by
  cases h with
  | command hp hend => exact hend.latchSound hp hs
  | reset => exact s.resetEngine_latchSound
  | clear v =>
    obtain ⟨hbusy, hfault, hinfo⟩ := hs
    exact ⟨fun hb => ⟨(hbusy hb).1, by simp [(hbusy hb).2]⟩, fun he => by simp [hfault he], hinfo⟩
  | issue v hp he =>
    obtain ⟨-, -, hinfo⟩ := hs
    exact ⟨fun _ => ⟨he, rfl⟩, fun _ => rfl, hinfo⟩
  | stay | read | enables | discard | settings | store => exact hs

/-- Settles O51: the schedule is no part of the latch, and every move keeps it sound. -/
theorem latchStaysSound : Obligations.LatchStaysSound := fun _ _ hs h =>
  (step_move h).latchSound hs

/-! ## The buffers -/

/-- At legal dimensions every accessor stays inside the frame (spec R113, R114). The halves and quarters in the table
are exact there, so each row of it is a linear bound in `w * h`. -/
theorem layout_offset_lt_fsize {cap : Nat} {f : PixelFormat} {w h : Nat} (hd : dimsOk cap (fam f) w h = true) :
    ∀ a ∈ [(layout f w h).y, (layout f w h).cb, (layout f w h).cr], ∀ k < a.count, a.offset k < fsize f w h := by
  intro a ha k hk
  simp only [List.mem_cons, List.not_mem_nil, or_false] at ha
  obtain ⟨-, hw, -, hh, -⟩ := (dimsOk_iff _ _ _ _).1 hd
  have heven : w * h % 2 = 0 := by simp [Nat.mul_mod, hw]
  have hfour : fam f = .f420 → w * h % 4 = 0 := by
    intro hF
    obtain ⟨w', rfl⟩ := Nat.dvd_of_mod_eq_zero hw
    obtain ⟨h', rfl⟩ := Nat.dvd_of_mod_eq_zero (hh.resolve_left (by simp [hF]))
    rw [Nat.mul_mul_mul_comm]
    omega
  generalize hn : w * h = n at heven hfour
  cases f <;> simp only [layout, fsize, fam, hn, reduceCtorEq, false_implies, true_implies] at ha hfour ⊢ <;>
    rcases ha with rfl | rfl | rfl <;> simp only [Accessor.offset] at hk ⊢ <;> omega

/-- What scattering a plane leaves specified was specified before, or lies at an offset of the accessor. -/
theorem scatter_read_some {raw : Memory} {a : Accessor} {p : Plane} {o : Nat} {b : Byte}
    (h : (scatter raw a p).read o = some b) : raw.read o = some b ∨ ∃ k < a.count, a.offset k = o := by
  by_cases ho : ∃ k < a.count, a.offset k = o
  · exact .inr ho
  · exact .inl ((scatter_read_other raw a p o fun k hk e => ho ⟨k, hk, e⟩).symm.trans h)

/-- An encoded frame is specified only below its size (spec R133). -/
theorem encodePlanes_read_lt_fsize {cap : Nat} {y cb cr : Plane} {f : PixelFormat} {w h o : Nat} {b : Byte}
    (hd : dimsOk cap (fam f) w h = true) (hr : (encodePlanes y cb cr f w h).read o = some b) : o < fsize f w h := by
  have hlt := layout_offset_lt_fsize hd
  rcases scatter_read_some hr with hr | ⟨k, hk, rfl⟩
  · rcases scatter_read_some hr with hr | ⟨k, hk, rfl⟩
    · rcases scatter_read_some hr with hr | ⟨k, hk, rfl⟩
      · simp at hr
      · exact hlt _ (by simp) k hk
    · exact hlt _ (by simp) k hk
  · exact hlt _ (by simp) k hk

/-- At legal dimensions the frame size fits the capacity (spec R115). -/
theorem fsize_le_cap {cap : Nat} {f : PixelFormat} {w h : Nat} (hd : dimsOk cap (fam f) w h = true) :
    fsize f w h ≤ cap := by
  obtain ⟨-, -, -, -, hcap⟩ := (dimsOk_iff _ _ _ _).1 hd
  exact (fsize_le_two_wh f w h).trans hcap

/-- From `s` to `t` OUT and OUT_LEN stay as they are, or are those of an encoded frame of legal dimensions (spec
R133). -/
def OutputKeptOrStored (s t : State) : Prop :=
  (t.outMem = s.outMem ∧ t.outLen = s.outLen) ∨
  ∃ f y cb cr, s.dimsOk (fam f) = true ∧ t.outMem = encodePlanes y cb cr f s.w s.h ∧
    t.outLen = BitVec.ofNat 32 (fsize f s.w s.h)

/-- Only ENC and CONV store to OUT (spec R133, R181). -/
theorem CommandEffect.outputKeptOrStored {s u : State} (h : CommandEffect s u) : OutputKeptOrStored s u := by
  cases h with
  | enc f hd => exact .inr ⟨f, _, _, _, hd, rfl, rfl⟩
  | conv fs fd hs hd =>
    rw [OutputKeptOrStored, ← s.loadFrame_w fs, ← s.loadFrame_h fs, ← (s.loadFrame fs).resampleFor_w (fam fs) (fam fd),
      ← (s.loadFrame fs).resampleFor_h (fam fs) (fam fd)]
    exact .inr ⟨fd, _, _, _, hd, rfl, rfl⟩
  | layout | dec | dn422 | up420 => exact .inl ⟨rfl, rfl⟩

/-- A fault leaves OUT and OUT_LEN alone (spec R200). -/
theorem CommandEnd.outputKeptOrStored {s t : State} (h : CommandEnd s t) : OutputKeptOrStored s t := by
  cases h with
  | fault k => exact .inl ⟨rfl, rfl⟩
  | faultWarned k => exact .inl ⟨rfl, rfl⟩
  | complete heff => exact heff.outputKeptOrStored

theorem CommandEnd.cap_eq {s t : State} (h : CommandEnd s t) : t.cap = s.cap :=
  (congrArg State.cap h.frame_eq).trans rfl

theorem CommandEnd.inMem_eq {s t : State} (h : CommandEnd s t) : t.inMem = s.inMem :=
  (congrArg State.inMem h.frame_eq).trans rfl

theorem CommandEnd.buffersSound {s t : State} (h : CommandEnd s t) (hs : BuffersSound s) : BuffersSound t := by
  obtain ⟨hin, hout, hinCap, houtCap⟩ := hs
  unfold BuffersSound
  rw [h.inMem_eq, h.cap_eq]
  rcases h.outputKeptOrStored with ⟨hm, -⟩ | ⟨f, y, cb, cr, hd, hm, -⟩ <;> rw [hm]
  · exact ⟨hin, hout, hinCap, houtCap⟩
  · exact ⟨hin, encodePlanes_wf .., hinCap, fun k b hr =>
      (encodePlanes_read_lt_fsize hd hr).trans_le (fsize_le_cap hd)⟩

theorem State.resetEngine_buffersSound (s : State) : BuffersSound s.resetEngine := ⟨rfl, rfl, by simp, by simp⟩

theorem Move.buffersSound {s t : State} (h : Move s t) (hs : BuffersSound s) : BuffersSound t := by
  cases h with
  | command hp hend => exact hend.buffersSound hs
  | reset => exact s.resetEngine_buffersSound
  | store k b hk =>
    obtain ⟨hin, hout, hinCap, houtCap⟩ := hs
    refine ⟨Memory.write_wf k b hin, hout, fun j x hr => ?_, houtCap⟩
    rw [Memory.read_write] at hr
    split at hr
    · next hj => exact hj ▸ hk
    · exact hinCap j x hr
  | stay | read | enables | clear | issue | discard | settings => exact hs

/-- Settles O49: the schedule is no part of the buffers, and every move keeps them sound. -/
theorem buffersStaySound : Obligations.BuffersStaySound := fun _ _ hs h =>
  (step_move h).buffersSound hs

/-- A legal capacity fits OUT_LEN (spec R6, R37), so the length of a stored frame is not cut off. -/
theorem outLen_toNat_of_fsize {cap n : Nat} (hcap : Config.capLegal cap = true) (hn : n ≤ cap) :
    (BitVec.ofNat 32 n).toNat = n := by
  simp only [Config.capLegal, Bool.and_eq_true, decide_eq_true_eq] at hcap
  rw [BitVec.toNat_ofNat, Nat.mod_eq_of_lt (by omega)]

theorem CommandEnd.outputSound {s t : State} (h : CommandEnd s t) (hcap : Config.capLegal s.cap = true)
    (hs : OutputSound s) : OutputSound t := by
  unfold OutputSound
  rw [h.cap_eq]
  rcases h.outputKeptOrStored with ⟨hm, hl⟩ | ⟨f, y, cb, cr, hd, hm, hl⟩ <;> rw [hm, hl]
  · exact hs
  · rw [outLen_toNat_of_fsize hcap (fsize_le_cap hd)]
    exact ⟨fsize_le_cap hd, fun k b hr => encodePlanes_read_lt_fsize hd hr⟩

theorem State.resetEngine_outputSound (s : State) : OutputSound s.resetEngine := ⟨Nat.zero_le _, by simp⟩

theorem Move.outputSound {s t : State} (h : Move s t) (hcap : Config.capLegal s.cap = true) (hs : OutputSound s) :
    OutputSound t := by
  cases h with
  | command hp hend => exact hend.outputSound hcap hs
  | reset => exact s.resetEngine_outputSound
  | stay | read | enables | clear | issue | discard | settings | store => exact hs

/-- Settles O50: the schedule is no part of the output, and every move keeps it sound. -/
theorem outputStaysSound : Obligations.OutputStaysSound := fun _ _ hcap hs h =>
  (step_move h).outputSound hcap hs

/-! ## The Frame -/

/-- The Y accessor counts the luma samples and the chroma accessors those of the family's grid (spec R22, R113). -/
theorem layout_counts (f : PixelFormat) (w h : Nat) :
    (layout f w h).y.count = w * h ∧ (layout f w h).cb.count = chromaLength (fam f) w h ∧
    (layout f w h).cr.count = chromaLength (fam f) w h := by
  cases f <;> exact ⟨rfl, rfl, rfl⟩

/-- The frame check, clause by clause (spec R195). -/
theorem State.frameOk_iff (s : State) (F : Family) :
    s.frameOk F = true ↔ s.frame.fv = true ∧ s.frame.fw = s.width ∧ s.frame.fh = s.height ∧ s.frame.ffam = F := by
  simp [State.frameOk, and_assoc]

theorem State.loadFrame_frameOk (s : State) (f : PixelFormat) : (s.loadFrame f).frameOk (fam f) = true :=
  ((s.loadFrame f).frameOk_iff (fam f)).2 ⟨rfl, rfl, rfl, rfl⟩

/-- A decoded Frame is sound (spec R130, R132). -/
theorem State.loadFrame_frameSound {s : State} {f : PixelFormat} (hd : s.dimsOk (fam f) = true) :
    FrameSound (s.loadFrame f) := by
  obtain ⟨hy, hcb, hcr⟩ := layout_counts f s.width.toNat s.height.toNat
  refine ⟨fun _ => ⟨hd, ?_, ?_, ?_⟩, fun hv => absurd hv (by simp [decodeFrame])⟩
  · exact (gather_length _ _).trans hy
  · exact (gather_length _ _).trans hcb
  · exact (gather_length _ _).trans hcr

/-- The number of samples of a filtered chroma plane at dimensions that are both even (spec R22, R152, R155). -/
theorem chroma_counts {cap w h : Nat} (hd : dimsOk cap .f420 w h = true) :
    w / 2 * (h / 2) = chromaLength .f420 w h ∧ w / 2 * (2 * (h / 2)) = chromaLength .f422 w h := by
  obtain ⟨-, hw, -, hh, -⟩ := (dimsOk_iff _ _ _ _).1 hd
  obtain ⟨w', rfl⟩ := Nat.dvd_of_mod_eq_zero hw
  obtain ⟨h', rfl⟩ := Nat.dvd_of_mod_eq_zero (hh.resolve_left (by simp))
  have hprod : 2 * w' * (2 * h') = 4 * (w' * h') := by ring
  have hgrid : w' * (2 * h') = 2 * (w' * h') := by ring
  simp only [chromaLength, hprod, hgrid, Nat.mul_div_cancel_left _ Nat.two_pos]
  omega

/-- Dimensions legal for 4:2:0 are legal for 4:2:2 (spec R115). -/
theorem dimsOk_f422_of_f420 {cap w h : Nat} (hd : dimsOk cap .f420 w h = true) : dimsOk cap .f422 w h = true := by
  obtain ⟨hw, hw2, hh, -, hcap⟩ := (dimsOk_iff _ _ _ _).1 hd
  exact (dimsOk_iff _ _ _ _).2 ⟨hw, hw2, hh, .inl rfl, hcap⟩

/-- Downsampling a Frame of the current dimensions keeps it sound (spec R161). -/
theorem State.downFrame_frameSound {s : State} (hs : FrameSound s) (hd : s.dimsOk .f420 = true)
    (hf : s.frameOk .f422 = true) : FrameSound s.downFrame := by
  obtain ⟨hv, hfw, hfh, -⟩ := (s.frameOk_iff _).1 hf
  obtain ⟨-, hpy, -⟩ := hs.1 hv
  have hlen := (chroma_counts hd).1
  refine ⟨fun _ => ⟨?_, hpy, ?_, ?_⟩, fun hn => absurd (hv.symm.trans hn) (by decide)⟩ <;>
    simp only [State.downFrame_cap, State.downFrame_fw, State.downFrame_fh, hfw, hfh]
  · exact hd
  · exact (down_length ..).trans hlen
  · exact (down_length ..).trans hlen

/-- Upsampling a Frame of the current dimensions keeps it sound (spec R162). -/
theorem State.upFrame_frameSound {s : State} (hs : FrameSound s) (hd : s.dimsOk .f420 = true)
    (hf : s.frameOk .f420 = true) : FrameSound s.upFrame := by
  obtain ⟨hv, hfw, hfh, -⟩ := (s.frameOk_iff _).1 hf
  obtain ⟨-, hpy, -⟩ := hs.1 hv
  have hlen := (chroma_counts hd).2
  refine ⟨fun _ => ⟨?_, hpy, ?_, ?_⟩, fun hn => absurd (hv.symm.trans hn) (by decide)⟩ <;>
    simp only [State.upFrame_cap, State.upFrame_fw, State.upFrame_fh, hfw, hfh]
  · exact dimsOk_f422_of_f420 hd
  · exact (up_length ..).trans hlen
  · exact (up_length ..).trans hlen

/-- So does resampling between any two families for which the dimensions are legal (spec R180). -/
theorem State.resampleFor_frameSound {s : State} {F G : Family} (hs : FrameSound s) (hF : s.dimsOk F = true)
    (hG : s.dimsOk G = true) (hf : s.frameOk F = true) : FrameSound (s.resampleFor F G) := by
  match F, G with
  | .f420, .f420 => exact hs
  | .f420, .f422 => exact upFrame_frameSound hs hF hf
  | .f422, .f420 => exact downFrame_frameSound hs hG hf
  | .f422, .f422 => exact hs

/-- A command's effect keeps the Frame sound: it is left alone, decoded anew, or resampled. -/
theorem CommandEffect.frameSound {s u : State} (h : CommandEffect s u) (hs : FrameSound s) : FrameSound u := by
  cases h with
  | layout | enc => exact hs
  | dec f hd => exact State.loadFrame_frameSound hd
  | dn422 hd hf => exact State.downFrame_frameSound hs hd hf
  | up420 hd hf => exact State.upFrame_frameSound hs hd hf
  | conv fs fd hsrc hdst =>
    exact State.resampleFor_frameSound (State.loadFrame_frameSound hsrc) hsrc hdst (s.loadFrame_frameOk fs)

theorem CommandEnd.frameSound {s t : State} (h : CommandEnd s t) (hs : FrameSound s) : FrameSound t := by
  cases h with
  | fault | faultWarned => exact hs
  | complete heff => exact heff.frameSound (s := s.noteW16) hs

theorem State.resetEngine_frameSound (s : State) : FrameSound s.resetEngine :=
  ⟨fun hv => absurd hv (by simp [Frame.none]), fun _ => rfl⟩

theorem Move.frameSound {s t : State} (h : Move s t) (hs : FrameSound s) : FrameSound t := by
  cases h with
  | command hp hend => exact hend.frameSound hs
  | reset => exact s.resetEngine_frameSound
  | stay | read | enables | clear | issue | discard | settings | store => exact hs

/-- Settles O52: the schedule is no part of the Frame, and every move keeps it sound. -/
theorem frameStaysSound : Obligations.FrameStaysSound := fun _ _ hs h => (step_move h).frameSound hs

/-! ## Reset -/

theorem State.resetWith_eq_resetEngine (cap : Nat) : State.resetWith cap = (State.resetWith cap).resetEngine := rfl

/-- Settles O54: a reset state is what a reset makes of itself, and that meets each invariant. -/
theorem resetMeetsTheInvariants : Obligations.ResetMeetsTheInvariants := by
  refine ⟨fun cap => ?_, rfl, by decide⟩
  rw [State.resetWith_eq_resetEngine]
  exact ⟨State.resetEngine_buffersSound _, State.resetEngine_outputSound _, State.resetEngine_latchSound _,
    State.resetEngine_frameSound _⟩

end Sys2Proof.Machine
end

section
/-! SUPPORT. The state and its registers as the host sees them: what the reset leaves, what the registers read, and what
a write to each does (spec 10_state.md, 20_memory.md). -/

namespace Sys2Proof.Machine

open Sys2Proof Sys2Proof.Safety

/-! ## The engine's turn -/

theorem step_of_engineTurn {s : State} (h : EngineTurn s) : step s = engineTurn { s with turns := s.turns.tail } := by
  unfold step takeTurn
  split
  · next ht => rw [ht, List.tail_nil, ← ht]
  · next ht => rw [ht, List.tail_cons]
  · next ht => simp [EngineTurn, ht] at h
  · next ht => simp [EngineTurn, ht] at h

theorem engineTurn_of_busy {s : State} (h : s.phase = .busy) : engineTurn s = runWord s.cmdl s := by
  simp [engineTurn, h]

theorem engineTurn_of_idle {s : State} (h : s.phase = .idle) : engineTurn s = .next s := by
  simp [engineTurn, h]

theorem runWord_of_command {w : Word} {i : Instr} (h : decode w = .command i) (s : State) : runWord w s = exec i s := by
  simp [runWord, h]

theorem decode_of_command? {w : Word} {i : Instr} (h : (decode w).command? = some i) : decode w = .command i := by
  cases hd : decode w with
  | command j => simpa [hd, Decoded.command?] using h
  | illegal r => simp [hd, Decoded.command?] at h

/-- Settles O5: the engine's turn while busy runs the latched word, also one that `withFetchWord` has latched. -/
theorem stepRunsTheLatchedCommand : Obligations.StepRunsTheLatchedCommand := by
  refine ⟨fun s i hturn hbusy hdec => ?_, fun s nbits w i hdec => ?_⟩
  · rw [step_of_engineTurn hturn, engineTurn_of_busy (s := { s with turns := s.turns.tail }) hbusy]
    exact runWord_of_command hdec _
  · have hrun : step (s.withFetchWord nbits w) = runWord (tableWord nbits w) (s.issue (tableWord nbits w)) := rfl
    rw [hrun, runWord_of_command (decode_of_command? hdec)]

/-- Settles O6: an idle engine's turn only comes off the schedule. -/
theorem idleEngineDoesNothing : Obligations.IdleEngineDoesNothing := fun s hturn hidle => by
  rw [step_of_engineTurn hturn, engineTurn_of_idle (s := { s with turns := s.turns.tail }) hidle]

/-! ## Bits of a register word -/

theorem getLsbD_flagAt (b : Bool) (n i : Nat) :
    (flagAt b n).getLsbD i = (decide (i < 32) && decide (i = n) && b) := by
  have hsub : i - n = 0 ↔ i ≤ n := Nat.sub_eq_zero_iff_le
  by_cases hi : i < n
  · simp [flagAt, hi, hi.ne]
  · simp only [flagAt, BitVec.getLsbD_shiftLeft, BitVec.getLsbD_setWidth, BitVec.getLsbD_ofBool]
    grind

/-- Bit `i` of STATUS: the four flags, and the code of the fault from bit 8 on (spec R32). -/
theorem State.getLsbD_statusWord (s : State) {i : Nat} (hi : i < 32) :
    s.statusWord.getLsbD i = (decide (i = 0) && s.busy || decide (i = 1) && s.done || decide (i = 2) && s.w16 ||
      decide (i = 3) && s.haz || decide (8 ≤ i) && s.errCode.getLsbD (i - 8)) := by
  have hi' : i - 8 < 32 := by omega
  have h8 : (!decide (i < 8)) = decide (8 ≤ i) := by grind
  simp only [State.statusWord, BitVec.getLsbD_or, getLsbD_flagAt, BitVec.getLsbD_shiftLeft, BitVec.getLsbD_setWidth,
    hi, hi', h8, decide_true, Bool.true_and]

/-- Bit `i` of CTRL (spec R33). -/
theorem State.getLsbD_ctrlWord (s : State) {i : Nat} (hi : i < 32) :
    s.ctrlWord.getLsbD i = (decide (i = 0) && s.ieDone || decide (i = 1) && s.ieErr) := by
  simp only [State.ctrlWord, BitVec.getLsbD_or, getLsbD_flagAt, hi, decide_true, Bool.true_and]

/-- Bit `i` of FRAME (spec R39). -/
theorem State.getLsbD_frameWord (s : State) {i : Nat} (hi : i < 32) :
    s.frameWord.getLsbD i =
      (decide (i = 0) && s.frame.fv || decide (i = 1) && (s.frame.fv && familyBit s.frame.ffam)) := by
  simp only [State.frameWord, BitVec.getLsbD_or, getLsbD_flagAt, hi, decide_true, Bool.true_and]

/-- A field whose bits are all 0 reads 0. -/
theorem field_eq_zero {v : Word} {start len : Nat} (h : ∀ i < len, v.getLsbD (start + i) = false) :
    v.extractLsb' start len = 0#len := by
  refine BitVec.eq_of_getLsbD_eq fun i hi => ?_
  simp [hi, h i hi]

/-- The field ERR of STATUS is the code of the fault (spec R32). -/
theorem State.statusWord_errField (s : State) : s.statusWord.extractLsb' 8 4 = s.errCode := by
  refine BitVec.eq_of_getLsbD_eq fun i hi => ?_
  rw [BitVec.getLsbD_extractLsb', s.getLsbD_statusWord (by omega), Nat.add_sub_cancel_left]
  grind

theorem State.statusWord_done (s : State) : s.statusWord.getLsbD 1 = s.done := by
  rw [s.getLsbD_statusWord (by decide)]
  simp

/-- The reserved bits of STATUS above its fields (spec R9, R32). -/
theorem State.getLsbD_statusWord_reserved (s : State) {i : Nat} (hi : i < 32) (h : 4 ≤ i ∧ i < 8 ∨ 12 ≤ i) :
    s.statusWord.getLsbD i = false := by
  have herr : 8 ≤ i → s.errCode.getLsbD (i - 8) = false := fun h8 => BitVec.getLsbD_of_ge _ _ (by omega)
  rw [s.getLsbD_statusWord hi]
  grind

theorem State.errCode_eq_zero_iff (s : State) : s.errCode = 0#4 ↔ s.err = none := by
  unfold State.errCode
  split
  · next h => simp [h]
  · next k h => cases k <;> simp [h, FaultKind.code]

/-- The two halves of FRAME_DIM (spec R40). -/
theorem halves_of_word (lo hi : Dim) :
    (lo.setWidth 32 ||| hi.setWidth 32 <<< 16).extractLsb' 0 16 = lo ∧
    (lo.setWidth 32 ||| hi.setWidth 32 <<< 16).extractLsb' 16 16 = hi := by
  constructor <;> refine BitVec.eq_of_getLsbD_eq fun i h => ?_
  · have hi : i < 32 := by omega
    simp [h, hi]
  · have hi : 16 + i < 32 ∧ i < 32 := by omega
    simp [h, hi]

/-! ## Steps of the host on REG -/

/-- The step of a register write that is a step (spec R62, R65). -/
theorem step_regWrite {s t : State} {rest : List Turn} {off : Nat} {v : Word} (h : off % 4 = 0)
    (ht : { s with turns := rest }.regWrite off v = t) :
    step { s with turns := .host (.write .reg off 4 v) :: rest } = .next t := by
  have hshape : regShapeOk off 4 = true := by simp [regShapeOk, h]
  exact ht ▸ if_pos hshape

/-- The step of a register read that is a step (spec R62, R66). -/
theorem step_regRead (s : State) (rest : List Turn) {off : Nat} (h : off % 4 = 0) :
    step { s with turns := .host (.read .reg off 4) :: rest } =
      .next { s with turns := rest, replies := .reg off (s.regRead off) :: s.replies } := by
  have hshape : regShapeOk off 4 = true := by simp [regShapeOk, h]
  exact if_pos hshape

/-- From 0x18 on the map has no register that can be written (spec R42). -/
theorem regAt_readOnly {off : Nat} {r : Reg} (h : 0x18 ≤ off) (hr : regAt off = some r) : r ∈ registerMap.drop 6 := by
  have hdrop : (registerMap.drop 6)[off / 4 - 6]? = some r := by
    rw [List.getElem?_drop, show 6 + (off / 4 - 6) = off / 4 by omega]
    exact hr
  exact List.mem_of_getElem? hdrop

theorem State.regWrite_readOnly (s : State) {off : Nat} (v : Word) (h : 0x18 ≤ off) : s.regWrite off v = s := by
  unfold State.regWrite
  split
  case h_7 => rfl
  all_goals exact absurd (regAt_readOnly h ‹_›) (by decide)

theorem State.regRead_unmapped (s : State) {off : Nat} (hmul : off % 4 = 0) (h : 0x50 < off) :
    s.regRead off = 0#32 := by
  have hnone : regAt off = none := List.getElem?_eq_none (by simp [registerMap]; omega)
  simp [State.regRead, hnone]

/-- Settles O34: a write to CMD is an issue or is discarded. -/
theorem cmdWriteIssuesOrIsDiscarded : Obligations.CmdWriteIssuesOrIsDiscarded := fun _ _ _ =>
  ⟨fun hp he => step_regWrite rfl (if_pos ⟨hp, he⟩), fun hn => step_regWrite rfl (if_neg hn), rfl⟩

/-- A flag that a 1 clears (spec R32). -/
theorem and_not_eq_ite (flag clear : Bool) : (flag && !clear) = if clear then false else flag := by
  cases clear <;> simp

/-- Settles O35: STATUS bit by bit, and the write that clears. -/
theorem statusReadsAndClears : Obligations.StatusReadsAndClears := by
  intro s rest v
  have hread : s.regRead 0x04 = s.statusWord := rfl
  rw [hread]
  refine ⟨?_, s.statusWord_done, ?_, ?_, ?_, ?_, s.statusWord_errField, s.errCode_eq_zero_iff, step_regWrite rfl ?_⟩
  · rw [s.getLsbD_statusWord (by decide)]; simp [State.busy]
  · rw [s.getLsbD_statusWord (by decide)]; simp
  · rw [s.getLsbD_statusWord (by decide)]; simp
  · exact field_eq_zero fun i hi => s.getLsbD_statusWord_reserved (by omega) (by omega)
  · exact field_eq_zero fun i hi => s.getLsbD_statusWord_reserved (by omega) (by omega)
  · rw [← and_not_eq_ite, ← and_not_eq_ite, ← and_not_eq_ite]
    rfl

/-- Settles O44: the interrupt line. -/
theorem interruptLine : Obligations.InterruptLine := fun s => by
  simp [State.irq, Option.isSome_iff_ne_none]

/-- Settles O36: the two kinds of write to CTRL, its bits as read, and the line from the bits as read. -/
theorem ctrlStoresEnablesOrResets : Obligations.CtrlStoresEnablesOrResets := by
  intro s rest v
  have hctrl : s.regRead 0x08 = s.ctrlWord := rfl
  have hstatus : s.regRead 0x04 = s.statusWord := rfl
  have hieDone : s.ctrlWord.getLsbD 0 = s.ieDone := by rw [s.getLsbD_ctrlWord (by decide)]; simp
  have hieErr : s.ctrlWord.getLsbD 1 = s.ieErr := by rw [s.getLsbD_ctrlWord (by decide)]; simp
  rw [hctrl, hstatus, hieDone, hieErr, s.statusWord_done, s.statusWord_errField, Ne, s.errCode_eq_zero_iff]
  refine ⟨fun hv => step_regWrite rfl (if_neg (Bool.eq_false_iff.1 hv)), fun hv => step_regWrite rfl (if_pos hv),
    rfl, rfl, field_eq_zero fun i hi => ?_, interruptLine s⟩
  rw [s.getLsbD_ctrlWord (by omega)]
  grind

/-- Settles O37: the three registers written while idle and while busy, as read, and left alone by every command. -/
theorem dimensionAndLengthRegisters : Obligations.DimensionAndLengthRegisters := by
  intro s rest v
  have hlow : v.setWidth 16 = v.extractLsb' 0 16 := BitVec.setWidth_eq_extractLsb' (by decide)
  rw [← hlow]
  refine ⟨fun hp => ?_, fun hp => ?_, BitVec.toNat_setWidth_of_le (by decide),
    BitVec.toNat_setWidth_of_le (by decide), rfl, fun t h => ?_⟩
  · exact ⟨step_regWrite rfl (if_pos hp), step_regWrite rfl (if_pos hp), step_regWrite rfl (if_pos hp)⟩
  · have hn : s.phase ≠ .idle := by simp [hp]
    exact ⟨step_regWrite rfl (if_neg hn), step_regWrite rfl (if_neg hn), step_regWrite rfl (if_neg hn)⟩
  · rw [(runWord_end h).frame_eq]
    exact ⟨rfl, rfl, rfl⟩

/-- Settles O38: no register from 0x18 on takes a write, and none is mapped above 0x50. -/
theorem readOnlyWritesAreIgnored : Obligations.ReadOnlyWritesAreIgnored := by
  intro s rest off v hmul hoff
  refine ⟨step_regWrite hmul (State.regWrite_readOnly _ v hoff), fun habove => ?_⟩
  rw [step_regRead s rest hmul, s.regRead_unmapped hmul habove]

/-- Settles O39: the read-only registers by offset, FRAME and LY_KIND bit by bit, FRAME_DIM by halves. -/
theorem readOnlyRegistersRead : Obligations.ReadOnlyRegistersRead := by
  intro s
  have hframe : s.regRead 0x20 = s.frameWord := rfl
  have hdim : s.regRead 0x24 = s.frameDimWord := rfl
  have hkind : s.regRead 0x2C = flagAt s.ly.packed 0 := rfl
  rw [hframe, hdim, hkind]
  refine ⟨rfl, rfl, ?_, ?_, ?_, fun hv => ?_, fun hv => ?_, rfl, ?_, ?_, rfl, rfl, rfl, rfl, rfl, rfl, rfl, rfl, rfl⟩
  · rw [s.getLsbD_frameWord (by decide)]; simp
  · rw [s.getLsbD_frameWord (by decide)]; cases s.frame.ffam <;> simp [familyBit]
  · refine field_eq_zero fun i hi => ?_
    rw [s.getLsbD_frameWord (by omega)]
    grind
  · rw [State.frameDimWord, if_pos hv]
    exact halves_of_word _ _
  · simp [State.frameDimWord, hv]
  · rw [getLsbD_flagAt]; simp
  · refine field_eq_zero fun i hi => ?_
    rw [getLsbD_flagAt]
    simp

/-! ## Reset -/

theorem flagAt_false (n : Nat) : flagAt false n = 0#32 := by simp [flagAt]

theorem State.resetEngine_statusWord (s : State) : s.resetEngine.statusWord = 0#32 := by
  have hbusy : s.resetEngine.busy = false := rfl
  simp [State.statusWord, State.errCode, hbusy, flagAt_false]

theorem State.resetEngine_ctrlWord (s : State) : s.resetEngine.ctrlWord = 0#32 := by
  simp [State.ctrlWord, flagAt_false]

theorem State.resetEngine_frameWord (s : State) : s.resetEngine.frameWord = 0#32 := by
  simp [State.frameWord, Frame.none, flagAt_false]

/-- After a reset every register reads 0 (spec R45). -/
theorem State.resetEngine_regRead (s : State) (off : Nat) : s.resetEngine.regRead off = 0#32 := by
  unfold State.regRead
  split
  · next r _ =>
    cases r with
    | status => exact s.resetEngine_statusWord
    | ctrl => exact s.resetEngine_ctrlWord
    | frame => exact s.resetEngine_frameWord
    | _ => rfl
  · rfl

theorem State.resetEngine_resetValues (s : State) : ResetValues s.resetEngine :=
  ⟨rfl, s.resetEngine_statusWord, s.resetEngine_ctrlWord, rfl, rfl, rfl, rfl, rfl, rfl, rfl, rfl, rfl,
    s.resetEngine_regRead, fun _ => rfl, fun _ => rfl, rfl, rfl, rfl, rfl⟩

/-- Settles O47: the reset state is what a reset makes of itself, so the table need only be read off a reset. -/
theorem resetLeavesTheSpecValues : Obligations.ResetLeavesTheSpecValues :=
  ⟨State.reset.resetEngine_resetValues, State.resetEngine_resetValues⟩

end Sys2Proof.Machine
end

section
/-! SUPPORT. The memory as the host and the engine share it: what each command leaves alone, the host's accesses to REG,
IN and OUT, and what they can do while a command is latched (spec 20_memory.md). -/

namespace Sys2Proof.Machine

open Sys2Proof Sys2Proof.Safety

/-! ## What a command leaves alone -/

/-- What commands are there to write (spec R70): the layout registers, the Frame, OUT_LEN and OUT. -/
def State.results (s : State) : LayoutRegs × Frame × Word × Memory := (s.ly, s.frame, s.outLen, s.outMem)

/-- Faults, the warning and completion leave the results alone, so a checked command keeps whatever part of them its
effect keeps, whichever check fails. -/
theorem State.runChecked_keeps {α : Type} (part : LayoutRegs × Frame × Word × Memory → α) {s t : State}
    {dims size frame : Bool} {effect : State → State} (h : s.runChecked dims size frame effect = .next t)
    (heff : ∀ u, part (effect u).results = part u.results) : part t.results = part s.results := by
  rcases State.runChecked_cases h with ⟨-, rfl⟩ | ⟨-, -, rfl⟩ | ⟨-, -, -, rfl⟩ | ⟨-, -, -, rfl⟩
  · rfl
  · rfl
  · rfl
  · exact heff s.noteW16

/-- LAYOUT keeps the Frame, OUT_LEN and OUT (spec R117). -/
theorem execLayout_keeps {fa : Tag} {s t : State} (h : exec (.layout fa) s = .next t) :
    (t.frame, t.outLen, t.outMem) = (s.frame, s.outLen, s.outMem) := by
  cases fa with
  | fmt f => exact State.runChecked_keeps (fun (_, out) => out) ((exec_layout f s).symm.trans h) fun _ => rfl
  | unlisted n => cases h; rfl

/-- DEC keeps the layout registers, OUT_LEN and OUT (spec R132). -/
theorem execDec_keeps {fa : Tag} {s t : State} (h : exec (.dec fa) s = .next t) :
    (t.ly, t.outLen, t.outMem) = (s.ly, s.outLen, s.outMem) := by
  cases fa with
  | fmt f =>
    exact State.runChecked_keeps (fun (ly, _, out) => (ly, out)) ((exec_dec f s).symm.trans h) fun _ => rfl
  | unlisted n => cases h; rfl

/-- ENC keeps the layout registers and the Frame (spec R133). -/
theorem execEnc_keeps {fa : Tag} {s t : State} (h : exec (.enc fa) s = .next t) :
    (t.ly, t.frame) = (s.ly, s.frame) := by
  cases fa with
  | fmt f =>
    exact State.runChecked_keeps (fun (ly, frame, _) => (ly, frame)) ((exec_enc f s).symm.trans h) fun _ => rfl
  | unlisted n => cases h; rfl

/-- What both resamplers keep of the results: all but the chroma planes and their grid (spec R161, R162). -/
def besideChroma : LayoutRegs × Frame × Word × Memory → LayoutRegs × Word × Memory × Plane × Bool × Dim × Dim :=
  fun (ly, frame, len, out) => (ly, len, out, frame.py, frame.fv, frame.fw, frame.fh)

theorem besideChroma_results_eq_iff {s t : State} :
    besideChroma t.results = besideChroma s.results ↔
      t.ly = s.ly ∧ t.outLen = s.outLen ∧ t.outMem = s.outMem ∧
      t.frame.py = s.frame.py ∧ t.frame.fv = s.frame.fv ∧ t.frame.fw = s.frame.fw ∧ t.frame.fh = s.frame.fh := by
  simp [besideChroma, State.results]

theorem execDn422_keeps {s t : State} (h : exec .dn422 s = .next t) : besideChroma t.results = besideChroma s.results :=
  State.runChecked_keeps besideChroma ((exec_dn422 s).symm.trans h) fun _ => rfl

theorem execUp420_keeps {s t : State} (h : exec .up420 s = .next t) : besideChroma t.results = besideChroma s.results :=
  State.runChecked_keeps besideChroma ((exec_up420 s).symm.trans h) fun _ => rfl

theorem State.convertFrame_ly (s : State) (fs fd : PixelFormat) : (s.convertFrame fs fd).ly = s.ly :=
  (congrArg State.ly ((s.loadFrame fs).resampleFor_frame (fam fs) (fam fd))).trans rfl

/-- CONV keeps the layout registers (spec R181). -/
theorem execConv_keeps {fa fb : Tag} {s t : State} (h : exec (.conv fa fb) s = .next t) : t.ly = s.ly := by
  cases fa with
  | unlisted n => cases h; rfl
  | fmt fs =>
    cases fb with
    | unlisted n => cases h; rfl
    | fmt fd =>
      exact State.runChecked_keeps Prod.fst ((exec_conv fs fd s).symm.trans h) fun u => u.convertFrame_ly fs fd

/-- Settles O22: the frame common to all commands, then what each keeps of the results. -/
theorem commandsTouchOnlyTheirOwn : Obligations.CommandsTouchOnlyTheirOwn := by
  intro i s t h
  rw [(exec_end h).frame_eq]
  refine ⟨rfl, rfl, rfl, rfl, rfl, rfl, rfl, rfl, rfl, rfl, rfl, fun _ => rfl, ?_⟩
  cases i with
  | layout fa =>
    obtain ⟨hfr, hlen, hout⟩ : _ ∧ _ ∧ _ := by simpa using execLayout_keeps h
    exact ⟨hfr, hlen, fun k => congrArg (·.read k) hout⟩
  | dec fa =>
    obtain ⟨hly, hlen, hout⟩ : _ ∧ _ ∧ _ := by simpa using execDec_keeps h
    exact ⟨hly, hlen, fun k => congrArg (·.read k) hout⟩
  | enc fa => simpa using execEnc_keeps h
  | dn422 =>
    obtain ⟨hly, hlen, hout, htag⟩ := besideChroma_results_eq_iff.1 (execDn422_keeps h)
    exact ⟨hly, hlen, fun k => congrArg (·.read k) hout, htag⟩
  | up420 =>
    obtain ⟨hly, hlen, hout, htag⟩ := besideChroma_results_eq_iff.1 (execUp420_keeps h)
    exact ⟨hly, hlen, fun k => congrArg (·.read k) hout, htag⟩
  | conv fa fb => simpa using execConv_keeps h

/-! ## The shape of an access -/

theorem regShapeOk_iff {off n : Nat} : regShapeOk off n = true ↔ n = 4 ∧ off % 4 = 0 := by
  simp [regShapeOk]

/-- A buffer access of one byte below `CAP` is a step (spec R62). -/
theorem State.bufferStep_of_byte {s t : State} {k n : Nat} (h : n = 1 ∧ k < s.cap) :
    s.bufferStep k n t = .next t := by
  simp [State.bufferStep, h]

/-- Every other buffer access is refused (spec R62). -/
theorem State.bufferStep_of_not_byte {s t : State} {k n : Nat} (h : ¬ (n = 1 ∧ k < s.cap)) :
    ∃ r, s.bufferStep k n t = .refused r := by
  unfold State.bufferStep
  split
  · exact ⟨_, rfl⟩
  · next hn =>
    rw [if_neg fun hk => h ⟨not_not.1 hn, hk⟩]
    exact ⟨_, rfl⟩

/-- Settles O40: in each space, reads and writes of the shape of spec R62 are steps, and no others are. -/
theorem misshapenAccessesAreRefused : Obligations.MisshapenAccessesAreRefused := by
  intro s sp k n v
  cases sp with
  | reg =>
    exact ⟨fun hs => ⟨⟨_, if_pos (regShapeOk_iff.2 hs)⟩, _, if_pos (regShapeOk_iff.2 hs)⟩,
      fun hs => ⟨⟨_, if_neg (mt regShapeOk_iff.1 hs)⟩, _, if_neg (mt regShapeOk_iff.1 hs)⟩⟩
  | inBuf | outBuf =>
    exact ⟨fun hs => ⟨⟨_, State.bufferStep_of_byte hs⟩, _, State.bufferStep_of_byte hs⟩,
      fun hs => ⟨State.bufferStep_of_not_byte hs, State.bufferStep_of_not_byte hs⟩⟩

/-! ## Reads and writes of the buffers -/

/-- A host read of a buffer byte replies with some byte, the one it has a claim to where there is one, and changes
nothing else but the counter of free readings (spec R46, R67, R68). -/
theorem State.replyByte_reads (s : State) (held : Option Byte) (mk : Byte → Reply) :
    ∃ b, s.replyByte held mk =
        { s with replies := mk b :: s.replies, draws := (s.replyByte held mk).draws } ∧
      ∀ x, held = some x → b = x := by
  cases held with
  | none => exact ⟨_, rfl, by simp⟩
  | some b => exact ⟨b, rfl, by simp⟩

theorem State.inByte_of_read {s : State} {k : Nat} {x : Byte} (hp : s.phase = .idle) (hx : s.inMem.read k = some x) :
    s.inByte k = some x := (if_pos hp).trans hx

theorem State.outByte_of_read {s : State} {k : Nat} {x : Byte} (hp : s.phase = .idle) (hk : k < s.outLen.toNat)
    (hx : s.outMem.read k = some x) : s.outByte k = some x := (if_pos ⟨hp, hk⟩).trans hx

theorem State.writeIn_of_idle {s : State} (hp : s.phase = .idle) (k : Nat) (b : Byte) :
    s.writeIn k b = { s with inMem := s.inMem.write k b } := if_pos hp

theorem State.writeIn_of_busy {s : State} (hp : s.phase = .busy) (k : Nat) (b : Byte) :
    s.writeIn k b = s.discardWrite := if_neg (by simp [hp])

/-- Settles O41: only the three kinds of read apply, and each replies with what it reads. -/
theorem readsHaveNoSideEffect : Obligations.ReadsHaveNoSideEffect := by
  refine ⟨fun s t sp k n h => ?_, fun s rest _ => step_regRead s rest⟩
  rcases hostAccess_cases h with ⟨_, ha, rfl⟩ | ⟨_, _, ha, -⟩ | ⟨_, ha, -, rfl⟩ | ⟨_, _, ha, -⟩ | ⟨_, ha, -, rfl⟩ |
    ⟨_, _, ha, -⟩ <;> cases ha
  · exact ⟨rfl, _, rfl, rfl, rfl⟩
  · obtain ⟨b, ht, hb⟩ := s.replyByte_reads (s.inByte k) (.inByte k)
    exact ⟨s.replyByte_frame _ _, _, congrArg State.replies ht, b, rfl,
      fun hp x hx => hb x (State.inByte_of_read hp hx)⟩
  · obtain ⟨b, ht, hb⟩ := s.replyByte_reads (s.outByte k) (.outByte k)
    exact ⟨s.replyByte_frame _ _, _, congrArg State.replies ht, b, rfl,
      fun hp hk x hx => hb x (State.outByte_of_read hp hk hx)⟩

section bufferSteps

variable {s : State} {k : Nat} (rest : List Turn) (hk : k < s.cap)
include hk

theorem step_readIn : step { s with turns := .host (.read .inBuf k 1) :: rest } =
    .next ({ s with turns := rest }.replyByte (s.inByte k) (.inByte k)) :=
  State.bufferStep_of_byte (s := { s with turns := rest }) ⟨rfl, hk⟩

theorem step_writeIn (v : Word) : step { s with turns := .host (.write .inBuf k 1 v) :: rest } =
    .next ({ s with turns := rest }.writeIn k (v.setWidth 8)) :=
  State.bufferStep_of_byte (s := { s with turns := rest }) ⟨rfl, hk⟩

theorem step_readOut : step { s with turns := .host (.read .outBuf k 1) :: rest } =
    .next ({ s with turns := rest }.replyByte (s.outByte k) (.outByte k)) :=
  State.bufferStep_of_byte (s := { s with turns := rest }) ⟨rfl, hk⟩

theorem step_writeOut (v : Word) : step { s with turns := .host (.write .outBuf k 1 v) :: rest } =
    .next { s with turns := rest } :=
  State.bufferStep_of_byte (s := { s with turns := rest }) ⟨rfl, hk⟩

end bufferSteps

/-- Settles O42: a write to IN while idle and while busy, a read, and the frame of every command. -/
theorem inBufferAccess : Obligations.InBufferAccess := by
  refine ⟨fun s rest k v hk => ⟨fun hp => ?_, fun hp => ?_, ?_⟩, fun i s t h => ?_⟩
  · have hbyte : v.setWidth 8 = v.extractLsb' 0 8 := BitVec.setWidth_eq_extractLsb' (by decide)
    rw [step_writeIn rest hk, State.writeIn_of_idle (s := { s with turns := rest }) hp, hbyte]
    exact ⟨_, rfl, rfl, s.inMem.read_write_same _ _, fun j hj => s.inMem.read_write_other _ hj⟩
  · rw [step_writeIn rest hk, State.writeIn_of_busy (s := { s with turns := rest }) hp]
    rfl
  · obtain ⟨b, ht, hb⟩ := State.replyByte_reads { s with turns := rest } (s.inByte k) (.inByte k)
    exact ⟨b, _, step_readIn rest hk, ht, fun hp x hx => hb x (State.inByte_of_read hp hx)⟩
  · exact ⟨(exec_end h).inMem_eq, (congrArg State.inLen (exec_end h).frame_eq).trans rfl⟩

/-- Settles O43: a read of OUT, and a write that is ignored. -/
theorem outBufferAccess : Obligations.OutBufferAccess := by
  intro s rest k v hk
  obtain ⟨b, ht, hb⟩ := State.replyByte_reads { s with turns := rest } (s.outByte k) (.outByte k)
  exact ⟨⟨b, _, step_readOut rest hk, ht, fun hp hlen x hx => hb x (State.outByte_of_read hp hlen hx)⟩,
    step_writeOut rest hk v⟩

/-! ## While a command is latched -/

/-- The frame of a host access beside a latched command (spec R66, R69): it writes the flags, the enables, the replies
and the counter of free readings, and of DONE and W16 it can only clear. -/
def Undisturbed (s t : State) : Prop :=
  t = { s with
    done := t.done, w16 := t.w16, haz := t.haz, ieDone := t.ieDone, ieErr := t.ieErr
    draws := t.draws, replies := t.replies } ∧
  (t.done = true → s.done = true) ∧ (t.w16 = true → s.w16 = true)

theorem State.discardWrite_undisturbed (s : State) : Undisturbed s s.discardWrite := ⟨rfl, id, id⟩

theorem State.writeStatus_undisturbed (s : State) (v : Word) : Undisturbed s (s.writeStatus v) :=
  ⟨rfl, fun h => (Bool.and_eq_true_iff.1 h).1, fun h => (Bool.and_eq_true_iff.1 h).1⟩

theorem State.writeCtrl_undisturbed (s : State) {v : Word} (hv : v.getLsbD 31 = false) :
    Undisturbed s (s.writeCtrl v) := by
  rw [State.writeCtrl, if_neg (Bool.eq_false_iff.1 hv)]
  exact ⟨rfl, id, id⟩

theorem State.replyByte_undisturbed (s : State) (held : Option Byte) (mk : Byte → Reply) :
    Undisturbed s (s.replyByte held mk) := by
  rw [State.replyByte_frame]
  exact ⟨rfl, id, id⟩

/-- CTRL has the one offset 0x08 (spec R30). -/
theorem eq_ctrl_offset {off : Nat} (hmul : off % 4 = 0) (h : regAt off = some .ctrl) : off = 0x08 := by
  have hplace : ∀ i < registerMap.length, registerMap[i]? = some .ctrl → i = 2 := by decide
  have hindex : off / 4 = 2 := hplace _ (List.getElem?_eq_some_iff.1 h).1 h
  omega

/-- While busy, a register write that is no soft reset is ignored, is discarded, or goes to STATUS or the enables
(spec R69). -/
theorem State.regWrite_undisturbed {s : State} {off : Nat} {v : Word} (hp : s.phase = .busy)
    (hctrl : regAt off = some .ctrl → v.getLsbD 31 = false) : Undisturbed s (s.regWrite off v) := by
  have hn : s.phase ≠ .idle := by simp [hp]
  unfold State.regWrite
  split
  · next hr => exact s.writeCtrl_undisturbed (hctrl hr)
  · exact s.writeStatus_undisturbed v
  · rw [State.writeCmd, if_neg fun h => hn h.1]; exact s.discardWrite_undisturbed
  · rw [State.writeWidth, if_neg hn]; exact s.discardWrite_undisturbed
  · rw [State.writeHeight, if_neg hn]; exact s.discardWrite_undisturbed
  · rw [State.writeInLen, if_neg hn]; exact s.discardWrite_undisturbed
  · exact ⟨rfl, id, id⟩

theorem hostAccess_undisturbed {a : HostAccess} {s t : State} (h : hostAccess a s = .next t) (hp : s.phase = .busy)
    (hsoft : ∀ v, a = .write .reg 0x08 4 v → v.getLsbD 31 = false) : Undisturbed s t := by
  rcases hostAccess_cases h with ⟨off, -, rfl⟩ | ⟨off, v, rfl, hmul, rfl⟩ | ⟨k, -, -, rfl⟩ | ⟨k, v, -, -, rfl⟩ |
    ⟨k, -, -, rfl⟩ | ⟨k, v, -, -, rfl⟩
  · exact ⟨rfl, id, id⟩
  · exact State.regWrite_undisturbed hp fun hr => hsoft v (by rw [eq_ctrl_offset hmul hr])
  · exact s.replyByte_undisturbed _ _
  · rw [State.writeIn_of_busy hp]; exact s.discardWrite_undisturbed
  · exact s.replyByte_undisturbed _ _
  · exact ⟨rfl, id, id⟩

/-- Settles O45: the turn is a host access and no soft reset, and such an access leaves a latched command alone. -/
theorem busyEngineIsUndisturbed : Obligations.BusyEngineIsUndisturbed := by
  intro s t hp h hengine hreset
  rcases step_cases h with ⟨hturn, -⟩ | ⟨a, hturn, hacc⟩ | ⟨hturn, -⟩
  · exact absurd hturn hengine
  · have hsoft : ∀ v, a = .write .reg 0x08 4 v → v.getLsbD 31 = false := fun v ha =>
      Bool.eq_false_iff.2 fun hv => hreset (.inr ⟨v, hv, ha ▸ hturn⟩)
    obtain ⟨hframe, hdone, hw16⟩ := hostAccess_undisturbed hacc hp hsoft
    rw [hframe]
    exact ⟨hp, rfl, rfl, rfl, rfl, rfl, rfl, rfl, rfl, rfl, rfl, rfl, hdone, hw16⟩
  · exact absurd (.inl hturn) hreset

end Sys2Proof.Machine
end

section
/-! SUPPORT. The decoder and the encoder are inverse to each other, and each row of the opcode table is what the encoder
makes of its command (spec 30_encoding.md). -/

namespace Sys2Proof

/-! ## A word and its fields -/

/-- A word with nothing in bits 31:12 is made of its three fields (spec R90, R96). -/
theorem commandWord_fields {w : Word} (hz : zField w = 0#20) :
    commandWord (opField w) (faField w) (fbField w) = w := by
  refine BitVec.eq_of_getLsbD_eq fun i hi => ?_
  have hhigh : 12 ≤ i → w.getLsbD i = false := fun h12 => by
    have hbit : (zField w).getLsbD (i - 12) = false := by simp [hz]
    have hz' : i - 12 < 20 := by omega
    simpa [zField, hz', Nat.add_sub_cancel' h12] using hbit
  simp only [getLsbD_commandWord, opField, faField, fbField, BitVec.getLsbD_extractLsb']
  grind

@[simp] theorem opField_and (v w : Word) : opField (v &&& w) = opField v &&& opField w := BitVec.extractLsb'_and

@[simp] theorem fbField_and (v w : Word) : fbField (v &&& w) = fbField v &&& fbField w := BitVec.extractLsb'_and

@[simp] theorem zField_and (v w : Word) : zField (v &&& w) = zField v &&& zField w := BitVec.extractLsb'_and

/-- A word whose opcode and bits 31:12 a row fixes is the row's opcode beside its own two fields (spec R98). -/
theorem eq_commandWord_of_masked {w mask : Word} {op : BitVec 4} (hrow : w &&& mask = commandWord op 0#4 0#4)
    (hop : opField mask = BitVec.allOnes 4) (hz : zField mask = BitVec.allOnes 20) :
    w = commandWord op (faField w) (fbField w) := by
  have hopw := congrArg opField hrow
  have hzw := congrArg zField hrow
  rw [opField_and, hop, BitVec.and_allOnes, opField_commandWord] at hopw
  rw [zField_and, hz, BitVec.and_allOnes, zField_commandWord] at hzw
  rw [← hopw, commandWord_fields hzw]

/-- A word whose `fb` a row fixes as well has 0 there (spec R98). -/
theorem fbField_eq_zero_of_masked {w mask : Word} {op : BitVec 4} (hrow : w &&& mask = commandWord op 0#4 0#4)
    (hfb : fbField mask = BitVec.allOnes 4) : fbField w = 0#4 := by
  have hfbw := congrArg fbField hrow
  rwa [fbField_and, hfb, BitVec.and_allOnes, fbField_commandWord] at hfbw

/-! ## Decoding -/

/-- Settles O2: the fields of an encoded word are those of the command, and each tag is read back from its code. -/
theorem encodedCommandsDecodeBack : Obligations.EncodedCommandsDecodeBack := by
  intro i h
  cases i with
  | layout fa | dec fa | enc fa => simp [encode, decode, Tag.ofCode_code (t := fa) h]
  | dn422 | up420 => simp [encode, decode]
  | conv fa fb =>
    obtain ⟨ha, hb⟩ := Bool.and_eq_true_iff.1 h
    simp [encode, decode, Tag.ofCode_code ha, Tag.ofCode_code hb]

/-- Everything that being a command says of a word: bits 31:12 are 0, the tags fit their fields, and the three fields
are those of the command (spec R90 to R92, R98). -/
theorem fields_of_decode {w : Word} {i : Instr} (h : decode w = .command i) :
    zField w = 0#20 ∧ i.wellFormed = true ∧ encode i = commandWord (opField w) (faField w) (fbField w) := by
  unfold decode at h
  split_ifs at h with hz hop hfb hop hfb hop hfb hop hf hop hf hop <;> cases h <;> refine ⟨not_not.1 hz, ?_⟩
  · exact ⟨Tag.ofCode_wellFormed _, by rw [encode, Tag.code_ofCode, hop, hfb]⟩
  · exact ⟨Tag.ofCode_wellFormed _, by rw [encode, Tag.code_ofCode, hop, hfb]⟩
  · exact ⟨Tag.ofCode_wellFormed _, by rw [encode, Tag.code_ofCode, hop, hfb]⟩
  · exact ⟨rfl, by rw [encode, hop, hf.1, hf.2]⟩
  · exact ⟨rfl, by rw [encode, hop, hf.1, hf.2]⟩
  · exact ⟨Bool.and_eq_true_iff.2 ⟨Tag.ofCode_wellFormed _, Tag.ofCode_wellFormed _⟩, by
      rw [encode, Tag.code_ofCode, Tag.code_ofCode, hop]⟩

/-- Settles O3: a command's word has nothing but its three fields, and they are the command's. -/
theorem decodedWordsEncodeBack : Obligations.DecodedWordsEncodeBack := by
  intro w i h
  obtain ⟨hz, hwf, hword⟩ := fields_of_decode h
  exact ⟨hwf, hword.trans (commandWord_fields hz)⟩

theorem decode_of_encode_eq {w : Word} {i : Instr} (hwf : i.wellFormed = true) (hword : encode i = w) :
    decode w = .command i := hword ▸ encodedCommandsDecodeBack i hwf

/-- Settles O1: each word is the encoding of its command. -/
theorem specWordsDecode : Obligations.SpecWordsDecode := by
  unfold Obligations.SpecWordsDecode
  exact ⟨decode_of_encode_eq rfl rfl, decode_of_encode_eq rfl rfl, decode_of_encode_eq rfl rfl,
    decode_of_encode_eq rfl rfl, decode_of_encode_eq rfl rfl, decode_of_encode_eq rfl rfl,
    decode_of_encode_eq rfl rfl, decode_of_encode_eq rfl rfl, rfl, rfl, rfl, rfl, rfl, rfl, rfl, rfl⟩

/-! ## The opcode table -/

/-- A word in a row that leaves `fa` open is that row's command with the tag of its own `fa` (spec R92, R98). -/
theorem decode_of_one_field_row {w : Word} {op : BitVec 4} {command : Tag → Instr}
    (hencode : ∀ t, encode (command t) = commandWord op t.code 0#4)
    (hwf : ∀ t, (command t).wellFormed = t.wellFormed) (hrow : w &&& 0xFFFFFF0F#32 = commandWord op 0#4 0#4) :
    decode w = .command (command (Tag.ofCode (faField w))) := by
  have hword := eq_commandWord_of_masked hrow rfl rfl
  rw [fbField_eq_zero_of_masked hrow rfl] at hword
  exact decode_of_encode_eq ((hwf _).trans (Tag.ofCode_wellFormed _))
    (by rw [hencode, Tag.code_ofCode, ← hword])

/-- A word in the row of CONV is that command with the tags of its two fields (spec R92, R98). -/
theorem decode_of_conv_row {w : Word} (hrow : w &&& 0xFFFFF00F#32 = commandWord 6#4 0#4 0#4) :
    decode w = .command (.conv (Tag.ofCode (faField w)) (Tag.ofCode (fbField w))) := by
  have hword := eq_commandWord_of_masked hrow rfl rfl
  exact decode_of_encode_eq (Bool.and_eq_true_iff.2 ⟨Tag.ofCode_wellFormed _, Tag.ofCode_wellFormed _⟩)
    (by rw [encode, Tag.code_ofCode, Tag.code_ofCode, ← hword])

/-- A word in a row that leaves no field open is that row's one word (spec R98). -/
theorem decode_of_whole_row {w : Word} {i : Instr} (hwf : i.wellFormed = true)
    (hrow : w &&& 0xFFFFFFFF#32 = encode i) : decode w = .command i :=
  decode_of_encode_eq hwf (hrow.symm.trans BitVec.and_allOnes)

/-- Every word that is a command lies in the row of that command (spec R98). -/
theorem row_of_decode {w : Word} {i : Instr} (h : decode w = .command i) :
    w &&& Laws.TableRow.rowMask i = Laws.TableRow.rowMatch i := by
  obtain ⟨-, rfl⟩ := decodedWordsEncodeBack w i h
  cases i with
  | layout fa => exact Laws.TableRow.layout fa
  | dec fa => exact Laws.TableRow.dec fa
  | enc fa => exact Laws.TableRow.enc fa
  | dn422 => exact Laws.TableRow.dn422
  | up420 => exact Laws.TableRow.up420
  | conv fa fb => exact Laws.TableRow.conv fa fb

/-- Settles O4: a word in a row is the encoding of the row's command with its own tags; one in no row is no command. -/
theorem decodeSelectsTheTableRow : Obligations.DecodeSelectsTheTableRow := by
  intro w
  have hlayout := decode_of_one_field_row (w := w) (command := .layout) (fun _ => rfl) (fun _ => rfl)
  have hdec := decode_of_one_field_row (w := w) (command := .dec) (fun _ => rfl) (fun _ => rfl)
  have henc := decode_of_one_field_row (w := w) (command := .enc) (fun _ => rfl) (fun _ => rfl)
  have hdn := decode_of_whole_row (w := w) (i := .dn422) rfl
  have hup := decode_of_whole_row (w := w) (i := .up420) rfl
  have hconv := decode_of_conv_row (w := w)
  refine ⟨hlayout, hdec, henc, hdn, hup, hconv, fun ⟨n1, n2, n3, n4, n5, n6⟩ => ?_, fun ⟨r, hill⟩ => ?_⟩
  · cases hd : decode w with
    | illegal r => exact ⟨r, rfl⟩
    | command i =>
      have hrow := row_of_decode hd
      cases i with
      | layout fa => exact absurd hrow n1
      | dec fa => exact absurd hrow n2
      | enc fa => exact absurd hrow n3
      | dn422 => exact absurd hrow n4
      | up420 => exact absurd hrow n5
      | conv fa fb => exact absurd hrow n6
  · have hnot : ∀ i, decode w ≠ .command i := by simp [hill]
    exact ⟨fun h => hnot _ (hlayout h), fun h => hnot _ (hdec h), fun h => hnot _ (henc h),
      fun h => hnot _ (hdn h), fun h => hnot _ (hup h), fun h => hnot _ (hconv h)⟩

end Sys2Proof
end

section
/-! SUPPORT. The format descriptor: the words that LAYOUT leaves in its registers, the sample at each offset of a raw
frame, and the steps that keep the multiple-of-16 warning (spec 40_format_descriptor.md). -/

namespace Sys2Proof.Machine

open Sys2Proof Sys2Proof.Safety

/-! ## LAYOUT -/

theorem State.dimsOk_of_dims {s : State} {F : Family} (h : Dims s F) : s.dimsOk F = true :=
  (dimsOk_iff _ _ _ _).2 h

/-- The warning a command notes after a passed dimension check is the one of spec R116. -/
theorem State.noteW16_eq (s : State) : s.noteW16 = { s with w16 := warned s } := by
  rw [warned, Bool.or_assoc]
  rfl

/-- LAYOUT on legal dimensions stores the descriptor and completes (spec R117). -/
theorem execLayout_completes {s : State} {f : PixelFormat} (h : Dims s (fam f)) :
    exec (.layout (.fmt f)) s = .next { completed s with ly := layoutRegs f s.w s.h } := by
  rw [exec_layout, State.dimsOk_of_dims h, State.runChecked_completes, State.noteW16_eq]
  rfl

/-- The offsets of the eleven layout result registers (spec R30, R41). -/
def layoutOffsets : List Nat := [0x28, 0x2C, 0x30, 0x34, 0x38, 0x3C, 0x40, 0x44, 0x48, 0x4C, 0x50]

/-- The registers of a stored descriptor read as its eleven numbers, each cut to 32 bits (spec R41, R113). -/
theorem regRead_layoutRegs {s : State} {f : PixelFormat} {w h : Nat} (hly : s.ly = layoutRegs f w h) :
    layoutOffsets.map s.regRead = (descriptorNumbers f w h).map (BitVec.ofNat 32) := by
  have hwords : layoutOffsets.map s.regRead =
      [s.ly.fsize, flagAt s.ly.packed 0, s.ly.y.start, s.ly.y.step, s.ly.y.count, s.ly.cb.start, s.ly.cb.step,
        s.ly.cb.count, s.ly.cr.start, s.ly.cr.step, s.ly.cr.count] := rfl
  rw [hwords, hly]
  cases f <;> rfl

/-- At legal dimensions no number of the descriptor is above the capacity (spec R113, R115, R117): the starts,
the counts and the size are at most `2 * w * h`, and so are the steps, which are at most 4. -/
theorem descriptorNumbers_le_cap {cap : Nat} {f : PixelFormat} {w h : Nat} (hd : LegalDims cap (fam f) w h) :
    ∀ n ∈ descriptorNumbers f w h, n ≤ cap := by
  obtain ⟨hw, -, hh, -, hcap⟩ := hd
  have hsmallest : 2 * 1 ≤ w * h := Nat.mul_le_mul hw hh
  rw [Nat.mul_assoc] at hcap
  intro n hn
  cases f <;> simp only [descriptorNumbers, List.mem_cons, List.not_mem_nil, or_false] at hn <;> omega

/-- At legal dimensions and a legal capacity none of the eleven numbers is cut off (spec R6, R41). -/
theorem regRead_layoutRegs_toNat {s : State} {cap : Nat} {f : PixelFormat} {w h : Nat}
    (hcap : Config.capLegal cap = true) (hd : LegalDims cap (fam f) w h) (hly : s.ly = layoutRegs f w h) :
    layoutOffsets.map (fun off => (s.regRead off).toNat) = descriptorNumbers f w h := by
  have hkeep : ∀ n ∈ descriptorNumbers f w h, (BitVec.ofNat 32 n).toNat = n := fun n hn =>
    outLen_toNat_of_fsize hcap (descriptorNumbers_le_cap hd n hn)
  calc layoutOffsets.map (fun off => (s.regRead off).toNat)
      = (layoutOffsets.map s.regRead).map BitVec.toNat := List.map_map.symm
    _ = (descriptorNumbers f w h).map fun n => (BitVec.ofNat 32 n).toNat := by
        rw [regRead_layoutRegs hly, List.map_map]
        rfl
    _ = descriptorNumbers f w h := by rw [List.map_congr_left hkeep, List.map_id']

/-- Settles O16: LAYOUT completes, and a legal capacity keeps its numbers from being cut off. -/
theorem layoutStoresTheDescriptor : Obligations.LayoutStoresTheDescriptor := fun _ _ hcap hd =>
  ⟨_, execLayout_completes hd, rfl, regRead_layoutRegs_toNat hcap hd rfl⟩

/-! ## The sample at an offset -/

/-- The three accessors of a layout by the number of the plane: Y, Cb, Cr (spec R113). -/
def Layout.plane (l : Layout) : Fin 3 → Accessor := ![l.y, l.cb, l.cr]

/-- The plane and the index of the sample at an offset of a planar frame: the luma plane, then chroma plane `p`, then
chroma plane `q`. -/
def planarSampleAt (p q : Fin 3) (luma chroma o : Nat) : Fin 3 × Nat :=
  if o < luma then (0, o) else if o < luma + chroma then (p, o - luma) else (q, o - (luma + chroma))

/-- The plane and the index of the sample at an offset of a packed frame: luma samples at every second offset from `y`
on, a Cb sample at every fourth from `cb` on, and a Cr sample where neither is. -/
def packedSampleAt (y cb o : Nat) : Fin 3 × Nat :=
  if o % 2 = y then (0, o / 2) else if o % 4 = cb then (1, o / 4) else (2, o / 4)

/-- The plane and the index of the sample at an offset of a raw frame: the inverse of the accessors of `layout`
(`sampleAt_offset`, `offset_sampleAt`). -/
def sampleAt (f : PixelFormat) (w h : Nat) : Nat → Fin 3 × Nat :=
  match f with
  | .yv12 => planarSampleAt 1 2 (w * h) (w * h / 4)
  | .iyuv => planarSampleAt 2 1 (w * h) (w * h / 4)
  | .uyvy => packedSampleAt 1 0
  | .yvyu => packedSampleAt 0 3
  | .yuy2 => packedSampleAt 0 1
  | .y422 => planarSampleAt 1 2 (w * h) (w * h / 2)

section samples

variable {p q : Fin 3} {luma chroma k : Nat}

theorem planarSampleAt_luma (hk : k < luma) : planarSampleAt p q luma chroma (0 + k * 1) = (0, k) := by
  rw [planarSampleAt, Nat.zero_add, Nat.mul_one, if_pos hk]

theorem planarSampleAt_first (hk : k < chroma) : planarSampleAt p q luma chroma (luma + k * 1) = (p, k) := by
  rw [planarSampleAt, if_neg (by omega), if_pos (by omega), Nat.mul_one, Nat.add_sub_cancel_left]

theorem planarSampleAt_second : planarSampleAt p q luma chroma (luma + chroma + k * 1) = (q, k) := by
  rw [planarSampleAt, if_neg (by omega), if_neg (by omega), Nat.mul_one, Nat.add_sub_cancel_left]

theorem packedSampleAt_luma (y cb : Nat) (hy : y < 2) : packedSampleAt y cb (y + k * 2) = (0, k) := by
  rw [packedSampleAt, if_pos (by omega), Prod.mk.injEq]
  exact ⟨rfl, by omega⟩

theorem packedSampleAt_cb (y cb : Nat) (hcb : cb < 4) (hy : cb % 2 ≠ y) :
    packedSampleAt y cb (cb + k * 4) = (1, k) := by
  rw [packedSampleAt, if_neg (by omega), if_pos (by omega), Prod.mk.injEq]
  exact ⟨rfl, by omega⟩

theorem packedSampleAt_cr (y cb cr : Nat) (hcr : cr < 4) (hy : cr % 2 ≠ y) (hcb : cr ≠ cb) :
    packedSampleAt y cb (cr + k * 4) = (2, k) := by
  rw [packedSampleAt, if_neg (by omega), if_neg (by omega), Prod.mk.injEq]
  exact ⟨rfl, by omega⟩

end samples

/-- No offset is named twice: from the offset the plane and the index are found again (spec R114). -/
theorem sampleAt_offset (f : PixelFormat) (w h : Nat) (p : Fin 3) {k : Nat}
    (hk : k < ((layout f w h).plane p).count) : sampleAt f w h (((layout f w h).plane p).offset k) = (p, k) := by
  match f, p with
  | .yv12, 0 => exact planarSampleAt_luma hk
  | .yv12, 1 => exact planarSampleAt_first hk
  | .yv12, 2 => exact planarSampleAt_second
  | .iyuv, 0 => exact planarSampleAt_luma hk
  | .iyuv, 1 => exact planarSampleAt_second
  | .iyuv, 2 => exact planarSampleAt_first hk
  | .y422, 0 => exact planarSampleAt_luma hk
  | .y422, 1 => exact planarSampleAt_first hk
  | .y422, 2 => exact planarSampleAt_second
  | .uyvy, 0 => exact packedSampleAt_luma 1 0 (by decide)
  | .uyvy, 1 => exact packedSampleAt_cb 1 0 (by decide) (by decide)
  | .uyvy, 2 => exact packedSampleAt_cr 1 0 2 (by decide) (by decide) (by decide)
  | .yvyu, 0 => exact packedSampleAt_luma 0 3 (by decide)
  | .yvyu, 1 => exact packedSampleAt_cb 0 3 (by decide) (by decide)
  | .yvyu, 2 => exact packedSampleAt_cr 0 3 1 (by decide) (by decide) (by decide)
  | .yuy2, 0 => exact packedSampleAt_luma 0 1 (by decide)
  | .yuy2, 1 => exact packedSampleAt_cb 0 1 (by decide) (by decide)
  | .yuy2, 2 => exact packedSampleAt_cr 0 1 3 (by decide) (by decide) (by decide)

/-- The halves and quarters in the table of spec R113 are exact at legal dimensions: the luma samples are four for each
chroma sample in 4:2:0 and two in 4:2:2. -/
theorem area_eq_chroma {cap : Nat} {F : Family} {w h : Nat} (hd : LegalDims cap F w h) :
    (F = .f420 → w * h = 4 * (w * h / 4)) ∧ w * h = 2 * (w * h / 2) := by
  obtain ⟨-, hw, -, hh, -⟩ := hd
  have hw := Nat.dvd_of_mod_eq_zero hw
  refine ⟨fun hF => ?_, (Nat.mul_div_cancel' (hw.mul_right h)).symm⟩
  have hh := Nat.dvd_of_mod_eq_zero (hh.resolve_left (by simp [hF]))
  exact (Nat.mul_div_cancel' (Nat.mul_dvd_mul hw hh)).symm

/-- The frame size is the number of samples of the three planes (spec R112, R113). -/
theorem fsize_eq_counts {cap : Nat} {f : PixelFormat} {w h : Nat} (hd : LegalDims cap (fam f) w h) :
    fsize f w h = w * h + 2 * chromaLength (fam f) w h := by
  obtain ⟨hquarter, hhalf⟩ := area_eq_chroma hd
  cases hF : fam f with
  | f420 =>
    have hquarter := hquarter hF
    simp only [fsize, chromaLength, hF]
    omega
  | f422 =>
    simp only [fsize, chromaLength, hF]
    omega

/-- A planar frame is the luma plane and two chroma planes one after the other, each at step 1. -/
theorem exists_planar {luma chroma o : Nat} (ho : o < luma + 2 * chroma) :
    (∃ k < luma, 0 + k * 1 = o) ∨ (∃ k < chroma, luma + k * 1 = o) ∨ (∃ k < chroma, luma + chroma + k * 1 = o) := by
  rcases Nat.lt_or_ge o luma with h0 | h0
  · exact .inl ⟨o, h0, by omega⟩
  · rcases Nat.lt_or_ge o (luma + chroma) with h1 | h1
    · exact .inr (.inl ⟨o - luma, by omega, by omega⟩)
    · exact .inr (.inr ⟨o - (luma + chroma), by omega, by omega⟩)

/-- A packed frame is groups of four bytes, with two luma samples at the offsets of one parity, and Cb and Cr at those
of the other. -/
theorem exists_packed {luma chroma o : Nat} (hluma : luma = 2 * chroma) (ho : o < luma + 2 * chroma) (y cb cr : Nat)
    (hy : y < 2) (hcb : cb < 4 ∧ cb % 2 ≠ y) (hcr : cr < 4 ∧ cr % 2 ≠ y) (hne : cb ≠ cr) :
    (∃ k < luma, y + k * 2 = o) ∨ (∃ k < chroma, cb + k * 4 = o) ∨ (∃ k < chroma, cr + k * 4 = o) := by
  by_cases h0 : o % 2 = y
  · exact .inl ⟨o / 2, by omega, by omega⟩
  · by_cases h1 : o % 4 = cb
    · exact .inr (.inl ⟨o / 4, by omega, by omega⟩)
    · exact .inr (.inr ⟨o / 4, by omega, by omega⟩)

/-- Every offset of a legal frame is named (spec R114). -/
theorem exists_sample {cap : Nat} {f : PixelFormat} {w h o : Nat} (hd : LegalDims cap (fam f) w h)
    (ho : o < fsize f w h) : ∃ p, ∃ k < ((layout f w h).plane p).count, ((layout f w h).plane p).offset k = o := by
  obtain ⟨-, hhalf⟩ := area_eq_chroma hd
  rw [fsize_eq_counts hd] at ho
  have hplane : (∃ k < (layout f w h).y.count, (layout f w h).y.offset k = o) ∨
      (∃ k < (layout f w h).cb.count, (layout f w h).cb.offset k = o) ∨
      (∃ k < (layout f w h).cr.count, (layout f w h).cr.offset k = o) := by
    cases f with
    | yv12 => exact exists_planar ho
    | iyuv => exact (exists_planar ho).imp_right Or.symm
    | uyvy => exact exists_packed hhalf ho 1 0 2 (by decide) (by decide) (by decide) (by decide)
    | yvyu => exact exists_packed hhalf ho 0 3 1 (by decide) (by decide) (by decide) (by decide)
    | yuy2 => exact exists_packed hhalf ho 0 1 3 (by decide) (by decide) (by decide) (by decide)
    | y422 => exact exists_planar ho
  rcases hplane with hy | hcb | hcr
  · exact ⟨0, hy⟩
  · exact ⟨1, hcb⟩
  · exact ⟨2, hcr⟩

/-- Settles O23: each offset is named, the plane and the index are found again from it, and the chroma counts are those
of the grid. -/
theorem accessorsPartitionTheFrame : Obligations.AccessorsPartitionTheFrame := by
  intro f cap w h hd
  have hd' : dimsOk cap (fam f) w h = true := (dimsOk_iff _ _ _ _).2 hd
  obtain ⟨hy, hcb, hcr⟩ := layout_counts f w h
  refine ⟨fun o ho => ?_, fun p k hk => ?_, hy, fun hF => ?_, fun hF => ?_⟩
  · obtain ⟨p, k, hk, hpk⟩ := exists_sample hd ho
    refine ⟨(p, k), ⟨hk, hpk⟩, fun (q, j) ⟨hj, hqj⟩ => ?_⟩
    calc (q, j) = sampleAt f w h o := hqj ▸ (sampleAt_offset f w h q hj).symm
      _ = (p, k) := hpk ▸ sampleAt_offset f w h p hk
  · have hmem : (layout f w h).plane p ∈ [(layout f w h).y, (layout f w h).cb, (layout f w h).cr] := by
      fin_cases p <;> simp [Layout.plane]
    exact layout_offset_lt_fsize hd' _ hmem k hk
  · rw [hF] at hd' hcb hcr
    have hgrid := (chroma_counts hd').1
    exact ⟨hcb.trans hgrid.symm, hcr.trans hgrid.symm⟩
  · rw [hF] at hcb hcr
    have hgrid : w / 2 * h = chromaLength .f422 w h := Nat.div_mul_right_comm (Nat.dvd_of_mod_eq_zero hd.2.1) h
    exact ⟨hcb.trans hgrid.symm, hcr.trans hgrid.symm⟩

/-! ## The warning -/

theorem CommandEffect.w16_eq {s u : State} (h : CommandEffect s u) : u.w16 = s.w16 :=
  (congrArg State.w16 h.frame_eq).trans rfl

/-- A command can set the warning and cannot clear it (spec R116). -/
theorem CommandEnd.w16_of_w16 {s t : State} (h : CommandEnd s t) (hw : s.w16 = true) : t.w16 = true := by
  cases h with
  | fault k => exact hw
  | faultWarned k => simp [hw]
  | complete heff => simp [heff.w16_eq, hw]

theorem engineTurn_w16_of_w16 {s t : State} (h : engineTurn s = .next t) (hw : s.w16 = true) : t.w16 = true := by
  rcases engineTurn_cases h with ⟨-, rfl⟩ | ⟨-, i, -, hexec⟩ | ⟨-, -, rfl⟩
  · exact hw
  · exact (exec_end hexec).w16_of_w16 hw
  · exact hw

theorem State.writeCtrl_w16 (s : State) {v : Word} (hv : v.getLsbD 31 = false) : (s.writeCtrl v).w16 = s.w16 := by
  rw [State.writeCtrl, if_neg (Bool.eq_false_iff.1 hv)]

/-- The writes that are carried out in some states and discarded in the others keep the warning (spec R69). -/
theorem State.writeOrDiscard_w16 {s u : State} {c : Prop} [Decidable c] (hu : u.w16 = s.w16) :
    (if c then u else s.discardWrite).w16 = s.w16 := by
  split
  · exact hu
  · rfl

theorem State.replyByte_w16 (s : State) (held : Option Byte) (mk : Byte → Reply) :
    (s.replyByte held mk).w16 = s.w16 := by
  rw [State.replyByte_frame]

/-- STATUS has the one offset 0x04 (spec R30). -/
theorem eq_status_offset {off : Nat} (hmul : off % 4 = 0) (h : regAt off = some .status) : off = 0x04 := by
  have hplace : registerMap[off / 4]? = registerMap[0x04 / 4]? := h
  have hindex : off / 4 = 0x04 / 4 :=
    (List.getElem?_inj (List.getElem?_eq_some_iff.1 h).1 (by decide)).1 hplace
  omega

/-- A register write that is neither a soft reset nor a write to STATUS with bit 2 set keeps the warning (spec R32,
R65). -/
theorem State.regWrite_w16 (s : State) {off : Nat} {v : Word} (hctrl : regAt off = some .ctrl → v.getLsbD 31 = false)
    (hstatus : regAt off = some .status → v.getLsbD 2 = false) : (s.regWrite off v).w16 = s.w16 := by
  unfold State.regWrite
  split
  · next hr => exact s.writeCtrl_w16 (hctrl hr)
  · next hr => rw [State.writeStatus_w16, hstatus hr, Bool.not_false, Bool.and_true]
  · exact writeOrDiscard_w16 rfl
  · exact writeOrDiscard_w16 rfl
  · exact writeOrDiscard_w16 rfl
  · exact writeOrDiscard_w16 rfl
  · rfl

theorem hostAccess_w16 {a : HostAccess} {s t : State} (h : hostAccess a s = .next t)
    (hsoft : ∀ v, a = .write .reg 0x08 4 v → v.getLsbD 31 = false)
    (hclear : ∀ v, a = .write .reg 0x04 4 v → v.getLsbD 2 = false) : t.w16 = s.w16 := by
  rcases hostAccess_cases h with ⟨off, -, rfl⟩ | ⟨off, v, rfl, hmul, rfl⟩ | ⟨k, -, -, rfl⟩ | ⟨k, v, -, -, rfl⟩ |
    ⟨k, -, -, rfl⟩ | ⟨k, v, -, -, rfl⟩
  · rfl
  · exact s.regWrite_w16 (fun hr => hsoft v (by rw [eq_ctrl_offset hmul hr]))
      fun hr => hclear v (by rw [eq_status_offset hmul hr])
  · exact s.replyByte_w16 _ _
  · exact State.writeOrDiscard_w16 rfl
  · exact s.replyByte_w16 _ _
  · rfl

/-- Settles O46: a command never clears the warning, and a host access clears it only by a soft reset or through
STATUS. -/
theorem warningIsSticky : Obligations.WarningIsSticky := by
  intro s t hw h hreset hclear
  rcases step_cases h with ⟨-, hturn⟩ | ⟨a, hturn, hacc⟩ | ⟨hturn, -⟩
  · exact engineTurn_w16_of_w16 hturn hw
  · have hsoft : ∀ v, a = .write .reg 0x08 4 v → v.getLsbD 31 = false := fun v ha =>
      Bool.eq_false_iff.2 fun hv => hreset (.inr ⟨v, hv, ha ▸ hturn⟩)
    have hkeep : ∀ v, a = .write .reg 0x04 4 v → v.getLsbD 2 = false := fun v ha =>
      Bool.eq_false_iff.2 fun hv => hclear ⟨v, hv, ha ▸ hturn⟩
    exact (hostAccess_w16 hacc hsoft hkeep).trans hw
  · exact absurd (.inl hturn) hreset

end Sys2Proof.Machine
end

section
/-! SUPPORT. The frame codec: what DEC and ENC leave when they complete, and that gathering and scattering along the
accessors of a layout are inverse to each other (spec 41_frame_codec.md). -/

namespace Sys2Proof.Machine

open Sys2Proof Sys2Proof.Safety

/-! ## DEC -/

/-- DEC on legal dimensions and a matching IN_LEN loads the Frame and completes (spec R132). -/
theorem execDec_completes {s : State} {f : PixelFormat} (hd : Dims s (fam f))
    (hlen : s.inLen.toNat = fsize f s.width.toNat s.height.toNat) :
    exec (.dec (.fmt f)) s = .next { completed s with frame := decodeFrame s.inMem f s.width s.height } := by
  have hz : s.sizeOk f = true := beq_iff_eq.2 hlen
  rw [exec_dec, State.dimsOk_of_dims hd, hz, State.runChecked_completes, State.noteW16_eq]
  rfl

theorem gatheredFrom_gather (raw : Memory) (a : Accessor) : GatheredFrom raw a (gather raw a) :=
  ⟨gather_length raw a, fun _ hk => gather_get raw a hk⟩

/-- The planes of a decoded Frame are the decoding of the raw frame (spec R130). -/
theorem decodedFrom_decodeFrame (raw : Memory) (f : PixelFormat) (w h : Dim) :
    DecodedFrom raw f w.toNat h.toNat (decodeFrame raw f w h).py (decodeFrame raw f w h).pcb
      (decodeFrame raw f w h).pcr :=
  ⟨gatheredFrom_gather .., gatheredFrom_gather .., gatheredFrom_gather ..⟩

/-- Settles O17: DEC completes, and the Frame it loads is the decoding of IN. -/
theorem decGathersTheFrame : Obligations.DecGathersTheFrame := fun _ _ hd hlen =>
  ⟨_, execDec_completes hd hlen, rfl, decodedFrom_decodeFrame .., rfl, rfl, rfl, rfl⟩

/-! ## Scattering three planes -/

/-- Two different planes name no common offset (spec R114). -/
theorem layout_offset_ne (f : PixelFormat) (w h : Nat) (p q : Fin 3) (hpq : p ≠ q) {k : Nat}
    (hk : k < ((layout f w h).plane q).count) :
    ∀ j < ((layout f w h).plane p).count,
      ((layout f w h).plane p).offset j ≠ ((layout f w h).plane q).offset k := fun j hj he => by
  have hsame : (p, j) = (q, k) := by rw [← sampleAt_offset f w h p hj, he, sampleAt_offset f w h q hk]
  exact hpq (congrArg Prod.fst hsame)

/-- Every step in the table of spec R113 is at least 1. -/
theorem layout_step_pos (f : PixelFormat) (w h : Nat) :
    0 < (layout f w h).y.step ∧ 0 < (layout f w h).cb.step ∧ 0 < (layout f w h).cr.step := by
  cases f <;> simp [layout]

/-- An encoded frame is the encoding of its planes: each plane is scattered to offsets that the planes written after it
leave alone (spec R131, R133). -/
theorem encodedFrom_encodePlanes {cap : Nat} {f : PixelFormat} {w h : Nat} (hd : LegalDims cap (fam f) w h)
    (y cb cr : Plane) : EncodedFrom (encodePlanes y cb cr f w h) f w h y cb cr := by
  obtain ⟨hy, hcb, hcr⟩ := layout_step_pos f w h
  refine ⟨fun k hk => ?_, fun k hk => ?_, fun k hk => ?_, fun o ho => ?_⟩
  · calc (encodePlanes y cb cr f w h).read ((layout f w h).y.offset k)
        = (scatter (scatter [] (layout f w h).y y) (layout f w h).cb cb).read ((layout f w h).y.offset k) :=
          scatter_read_other _ _ _ _ (layout_offset_ne f w h 2 0 (by decide) hk)
      _ = (scatter [] (layout f w h).y y).read ((layout f w h).y.offset k) :=
          scatter_read_other _ _ _ _ (layout_offset_ne f w h 1 0 (by decide) hk)
      _ = y.sample k := scatter_read_offset _ _ _ hy hk
  · calc (encodePlanes y cb cr f w h).read ((layout f w h).cb.offset k)
        = (scatter (scatter [] (layout f w h).y y) (layout f w h).cb cb).read ((layout f w h).cb.offset k) :=
          scatter_read_other _ _ _ _ (layout_offset_ne f w h 2 1 (by decide) hk)
      _ = cb.sample k := scatter_read_offset _ _ _ hcb hk
  · exact scatter_read_offset _ _ _ hcr hk
  · refine Option.eq_none_iff_forall_ne_some.2 fun b hb => ?_
    exact absurd (encodePlanes_read_lt_fsize ((dimsOk_iff _ _ _ _).2 hd) hb) (Nat.not_lt.2 ho)

/-! ## ENC -/

/-- ENC on legal dimensions and a fitting Frame stores the encoded frame and completes (spec R133). -/
theorem execEnc_completes {s : State} {f : PixelFormat} (hd : Dims s (fam f)) (hf : FrameFits s (fam f)) :
    exec (.enc (.fmt f)) s = .next { completed s with
      outMem := encodePlanes s.frame.py s.frame.pcb s.frame.pcr f s.width.toNat s.height.toNat
      outLen := BitVec.ofNat 32 (fsize f s.width.toNat s.height.toNat) } := by
  rw [exec_enc, State.dimsOk_of_dims hd, (s.frameOk_iff _).2 hf, State.runChecked_completes, State.noteW16_eq]
  rfl

/-- Settles O18: ENC completes, what it stores is the encoding of the Frame, and a legal capacity keeps its length from
being cut off. -/
theorem encScattersTheFrame : Obligations.EncScattersTheFrame := fun _ _ hcap hd hf =>
  ⟨_, execEnc_completes hd hf, rfl, encodedFrom_encodePlanes hd _ _ _,
    outLen_toNat_of_fsize hcap (fsize_le_cap (State.dimsOk_of_dims hd))⟩

/-! ## The round trips -/

/-- Gathering along an accessor gives back a plane of its length that lies scattered there (spec R134). -/
theorem gather_eq_of_scatteredTo {out : Memory} {a : Accessor} {p : Plane} (hp : ScatteredTo out a p)
    (hlen : p.length = a.count) : gather out a = p := by
  refine List.ext_getElem? fun k => ?_
  rcases Nat.lt_or_ge k a.count with hk | hk
  · have hread : out.read (a.offset k) = p[k]?.join := hp k hk
    rw [gather_get out a hk, hread, List.getElem?_eq_getElem (hlen ▸ hk), Option.join_some]
  · rw [List.getElem?_eq_none (by simpa using hk), List.getElem?_eq_none (hlen ▸ hk)]

/-- A raw frame holds, at the offsets of an accessor, the samples gathered there. -/
theorem scatteredTo_gather (raw : Memory) (a : Accessor) : ScatteredTo raw a (gather raw a) := fun k hk => by
  rw [gather_get raw a hk, Option.join_some]
  rfl

/-- Of canonical buffers only one is the encoding of given planes: every offset below the frame size is one of an
accessor, and from there on nothing is specified (spec R114, R131). -/
theorem eq_of_encodedFrom {cap : Nat} {f : PixelFormat} {w h : Nat} (hd : LegalDims cap (fam f) w h)
    {m n : Memory} {y cb cr : Plane} (hm : m.wf = true) (hn : n.wf = true)
    (hmenc : EncodedFrom m f w h y cb cr) (hnenc : EncodedFrom n f w h y cb cr) : m = n := by
  obtain ⟨my, mcb, mcr, mtop⟩ := hmenc
  obtain ⟨ny, ncb, ncr, ntop⟩ := hnenc
  refine Memory.ext_of_wf hm hn fun o => ?_
  rcases Nat.lt_or_ge o (fsize f w h) with ho | ho
  · obtain ⟨p, k, hk, rfl⟩ := exists_sample hd ho
    match p with
    | 0 => exact (my k hk).trans (ny k hk).symm
    | 1 => exact (mcb k hk).trans (ncb k hk).symm
    | 2 => exact (mcr k hk).trans (ncr k hk).symm
  · rw [mtop o ho, ntop o ho]

/-- Settles O24: what an encoding holds at each accessor is what a decoding gathers there; and a raw frame is an
encoding of its own decoding, of which there is only one. -/
theorem codecRoundTrips : Obligations.CodecRoundTrips := by
  intro f cap w h hd
  refine ⟨fun py pcb pcr hy hcb hcr => ?_, fun raw hwf htop => ?_⟩
  · obtain ⟨ey, ecb, ecr, -⟩ := encodedFrom_encodePlanes hd py pcb pcr
    rw [decodeFrame, gather_eq_of_scatteredTo ey hy, gather_eq_of_scatteredTo ecb hcb,
      gather_eq_of_scatteredTo ecr hcr]
  · exact eq_of_encodedFrom hd (encodePlanes_wf ..) hwf (encodedFrom_encodePlanes hd _ _ _)
      ⟨scatteredTo_gather _ _, scatteredTo_gather _ _, scatteredTo_gather _ _, htop⟩

end Sys2Proof.Machine
end

section
/-! SUPPORT. The chroma resampler: each filter as a sum over one column of its plane, what the sums do, and what DN422
and UP420 leave when they complete (spec 42_chroma_resampler.md). -/

namespace Sys2Proof.Machine

open Sys2Proof Sys2Proof.Safety

/-! ## The filters as sums over one column -/

/-- What the taps of a filter read in column `i` of its plane (spec R23, R150). -/
def column (src : Nat → Nat → Byte) (cw i : Nat) : Nat → Nat → Byte := fun tap r => src tap (r * cw + i)

section sums

variable (src : Nat → Nat → Byte) (cw rows i j : Nat)

theorem downAcc_eq_downSum : downAcc src cw rows i j = downSum (ints (column src cw i)) rows j := rfl

theorem upAccEven_eq_evenSum : upAccEven src cw rows i j = evenSum (ints (column src cw i)) rows j := rfl

theorem upAccOdd_eq_oddSum : upAccOdd src cw rows i j = oddSum (ints (column src cw i)) rows j := rfl

/-- The downsampler's output sample, from its sum (spec R154). -/
theorem downSample_eq_clip255 :
    downSample src cw rows i j = clip255 (downSum (ints (column src cw i)) rows j / 512) := rfl

/-- The upsampler's output sample at row `2j`, from its even sum (spec R156). -/
theorem upSample_even_eq_clip255 :
    upSample src cw rows i (2 * j) = clip255 (evenSum (ints (column src cw i)) rows j / 256) := by
  rw [upSample, if_pos (by omega), Nat.mul_div_cancel_left j Nat.two_pos]
  rfl

/-- The upsampler's output sample at row `2j + 1`, from its odd sum (spec R157). -/
theorem upSample_odd_eq_clip255 :
    upSample src cw rows i (2 * j + 1) = clip255 (oddSum (ints (column src cw i)) rows j / 256) := by
  rw [upSample, if_neg (by omega), show (2 * j + 1) / 2 = j by omega]
  rfl

end sums

/-! ## Sums over columns that agree -/

section agree

variable {x x' : Nat → Nat → Int} {rows j : Nat} (hj : j < rows) (h : ∀ n, ∀ r < rows, x n r = x' n r)
include hj h

theorem tapAbove_congr (n k : Nat) : x n (j - k) = x' n (j - k) := h n _ (by omega)

theorem tapBelow_congr (n k : Nat) : x n (min (j + k) (rows - 1)) = x' n (min (j + k) (rows - 1)) := h n _ (by omega)

/-- The clamps keep every tap within the rows of the plane (spec R152), so rows beyond them do not matter. -/
theorem downSum_congr : downSum x rows j = downSum x' rows j := by
  simp only [downSum, h _ j hj, tapAbove_congr hj h, tapBelow_congr hj h]

theorem evenSum_congr : evenSum x rows j = evenSum x' rows j := by
  simp only [evenSum, h _ j hj, tapAbove_congr hj h, tapBelow_congr hj h]

theorem oddSum_congr : oddSum x rows j = oddSum x' rows j := by
  simp only [oddSum, h _ j hj, tapAbove_congr hj h, tapBelow_congr hj h]

end agree

section agreeingColumns

variable {src src' : Nat → Nat → Byte} {cw rows i j : Nat}
  (h : ∀ n : Nat, ∀ r < rows, src n (r * cw + i) = src' n (r * cw + i))
include h

theorem ints_column_congr (n r : Nat) (hr : r < rows) : ints (column src cw i) n r = ints (column src' cw i) n r := by
  simp only [ints, column, h n r hr]

theorem downSample_congr (hj : j < rows) : downSample src cw rows i j = downSample src' cw rows i j := by
  simp only [downSample_eq_clip255, downSum_congr hj (ints_column_congr h)]

theorem upSample_congr (hj : j < 2 * rows) : upSample src cw rows i j = upSample src' cw rows i j := by
  rcases Nat.even_or_odd' j with ⟨k, rfl | rfl⟩
  · simp only [upSample_even_eq_clip255, evenSum_congr (show k < rows by omega) (ints_column_congr h)]
  · simp only [upSample_odd_eq_clip255, oddSum_congr (show k < rows by omega) (ints_column_congr h)]

end agreeingColumns

/-- Settles O33: every tap of either filter stays in its column, at a row of the plane. -/
theorem columnsAreIndependent : Obligations.ColumnsAreIndependent := fun _ _ _ _ _ _ h =>
  ⟨downSample_congr h, upSample_congr h⟩

/-! ## Constant planes -/

/-- The clamp leaves a byte as it is (spec R8). -/
theorem clip255_toNat_of_byte (c : Byte) : clip255 (c.toNat : Int) = c := by
  have hclip := clip255_toNat c.toNat
  exact BitVec.eq_of_toNat_eq (by omega)

/-- The taps of the downsampler sum to 512 and the bias is half of that (spec R153, R163). -/
theorem downSample_const (c : Byte) (cw rows i j : Nat) : downSample (fun _ _ => c) cw rows i j = c := by
  have hsum : downSum (ints (column (fun _ _ => c) cw i)) rows j = 512 * c.toNat + 256 := by
    simp only [downSum, ints, column]
    ring
  rw [downSample_eq_clip255, hsum, show (512 * c.toNat + 256 : Int) / 512 = c.toNat by omega, clip255_toNat_of_byte]

/-- The taps of either phase of the upsampler sum to 256 and the bias is half of that (spec R157, R163). -/
theorem upSample_const (c : Byte) (cw rows i r : Nat) : upSample (fun _ _ => c) cw rows i r = c := by
  have hshift : (256 * c.toNat + 128 : Int) / 256 = c.toNat := by omega
  rcases Nat.even_or_odd' r with ⟨j, rfl | rfl⟩
  · have hsum : evenSum (ints (column (fun _ _ => c) cw i)) rows j = 256 * c.toNat + 128 := by
      simp only [evenSum, ints, column]
      ring
    rw [upSample_even_eq_clip255, hsum, hshift, clip255_toNat_of_byte]
  · have hsum : oddSum (ints (column (fun _ _ => c) cw i)) rows j = 256 * c.toNat + 128 := by
      simp only [oddSum, ints, column]
      ring
    rw [upSample_odd_eq_clip255, hsum, hshift, clip255_toNat_of_byte]

/-- Every tap reads the constant of a constant plane, whatever its clamped row (spec R163). -/
theorem tapRead_replicate (c : Byte) {cw rows i : Nat} (hi : i < cw) (inst n out tap r : Nat) (hr : r < rows) :
    Plane.tapRead (List.replicate (cw * rows) (some c)) inst n out tap (r * cw + i) = c :=
  Plane.tapRead_specified (by rw [List.getElem?_replicate, if_pos (index_lt hi hr)]) inst n out tap

/-- A filtered plane is constant when the sample at every column and row is (spec R23). -/
theorem map_range_eq_replicate {f : Nat → Byte} {c : Byte} {cw rows : Nat}
    (h : ∀ o, o % cw < cw → o / cw < rows → f o = c) :
    (List.range (cw * rows)).map (fun o => some (f o)) = List.replicate (cw * rows) (some c) := by
  refine List.eq_replicate_iff.2 ⟨by simp, fun b hb => ?_⟩
  obtain ⟨o, ho, rfl⟩ := List.mem_map.1 hb
  have hlt : o < cw * rows := List.mem_range.1 ho
  rw [h o (Nat.mod_lt o (Nat.pos_of_lt_mul_right hlt)) (Nat.div_lt_of_lt_mul hlt)]

/-- Settles O28: at every output sample the filter works on the constant, and its weights sum to a power of two. -/
theorem constantChromaStays : Obligations.ConstantChromaStays := fun c cw rows inst n _ =>
  ⟨map_range_eq_replicate fun o hi hr =>
    (downSample_congr (tapRead_replicate c hi inst n o) (by omega)).trans (downSample_const c cw rows _ _),
  map_range_eq_replicate fun o hi hr =>
    (upSample_congr (tapRead_replicate c hi inst n o) hr).trans (upSample_const c cw rows _ _)⟩

/-! ## Ranges -/

section ranges

variable {x : Nat → Nat → Int} (hx : ∀ n r, 0 ≤ x n r ∧ x n r ≤ 255) (rows j : Nat)
include hx

/-! Each tap counts with its own bounds, whichever row it reads: the least and the greatest value of a sum come from its
negative and its positive weights (spec R159). -/

theorem downSum_bounds : -29324 ≤ downSum x rows j ∧ downSum x rows j ≤ 160396 := by
  grind [downSum]

theorem evenSum_bounds : -12112 ≤ evenSum x rows j ∧ evenSum x rows j ≤ 77648 := by
  grind [evenSum]

theorem oddSum_bounds : -12112 ≤ oddSum x rows j ∧ oddSum x rows j ≤ 77648 := by
  grind [oddSum]

end ranges

theorem ints_bounds (x : Nat → Nat → Byte) (n r : Nat) : 0 ≤ ints x n r ∧ ints x n r ≤ 255 := by
  have hlt := (x n r).isLt
  unfold ints
  omega

/-- A plane of one column that holds one byte in the listed rows and another in all others. -/
def twoTone (rows : List Nat) (listed other : Byte) : Nat → Byte := fun r => if r ∈ rows then listed else other

/-- Settles O29: a sum is least with 255 at the taps of negative weight and 0 at the others, and greatest the other way
round; at `j = 6` of 16 rows, and at `j = 3` of 8 for the odd phase, those taps lie in rows of their own. -/
theorem accumulatorsStayInRange : Obligations.AccumulatorsStayInRange := by
  refine ⟨fun x cw rows i j => ?_, ⟨twoTone [3, 4, 9, 10] 0 255, by decide⟩, ⟨twoTone [3, 4, 9, 10] 255 0, by decide⟩,
    ⟨twoTone [2, 5] 0 255, by decide⟩, ⟨twoTone [2, 5] 255 0, by decide⟩, by decide⟩
  have hdown := downSum_bounds (ints_bounds (column x cw i)) rows j
  have heven := evenSum_bounds (ints_bounds (column x cw i)) rows j
  have hodd := oddSum_bounds (ints_bounds (column x cw i)) rows j
  simp only [downAcc_eq_downSum, upAccEven_eq_evenSum, upAccOdd_eq_oddSum, asr]
  omega

/-! ## The clamp and the shift -/

/-- What the shift makes of a sum that is not positive clamps to 0 (spec R8). -/
theorem clip255_of_nonpos {v : Int} (h : v ≤ 0) : clip255 v = 0#8 := by
  rw [clip255, min_eq_right (by omega), max_eq_left h]
  rfl

/-- Settles O30: the two shifts agree on a sum that is not negative, and both give at most 0 on one that is. -/
theorem clampHidesTheRounding : Obligations.ClampHidesTheRounding := by
  intro a n
  have hpow : (0 : Int) < 2 ^ n := by positivity
  rcases Int.le_total 0 a with ha | ha
  · rw [asr, Int.tdiv_eq_ediv_of_nonneg ha]
  · have hfloor : asr a n ≤ 0 := Int.ediv_nonpos_of_nonpos_of_neg ha hpow
    have htrunc : Int.tdiv a (2 ^ n) ≤ 0 :=
      neg_nonneg.1 (Int.neg_tdiv a (2 ^ n) ▸ Int.tdiv_nonneg (neg_nonneg.2 ha) hpow.le)
    rw [clip255_of_nonpos hfloor, clip255_of_nonpos htrunc]

/-! ## The sixth tap -/

/-- The sum of a column of specified samples reads row `j+5` in the place of row `j+6` (spec R152, R164). -/
theorem downSum_eq_canonicalDownSum (y : Nat → Int) (rows j : Nat) :
    downSum (fun _ => y) rows j =
      canonicalDownSum y rows j - 5 * y (min (j + 6) (rows - 1)) + 5 * y (min (j + 5) (rows - 1)) := by
  unfold downSum canonicalDownSum
  ring

/-- Away from the edges no row is clamped, and the row `j+5` that is read twice has the weight 11 + 5 (spec R164). -/
theorem downSum_interior (y : Nat → Int) {rows j : Nat} (hj : j + 6 ≤ rows) :
    downSum (fun _ => y) rows j =
      5 * y (j - 5) + 11 * y (j - 4) - 21 * y (j - 3) - 37 * y (j - 2) + 70 * y (j - 1) + 228 * y j
        + 228 * y (j + 1) + 70 * y (j + 2) - 37 * y (j + 3) - 21 * y (j + 4) + 16 * y (j + 5) + 256 := by
  have hbelow : ∀ k ≤ 5, min (j + k) (rows - 1) = j + k := fun k hk => min_eq_left (by omega)
  rw [downSum, hbelow 1 (by decide), hbelow 2 (by decide), hbelow 3 (by decide), hbelow 4 (by decide),
    hbelow 5 (by decide)]
  ring

/-- Settles O31: the difference to the canonical sum is 5 times that of the rows `j+6` and `j+5`, clamped. -/
theorem sixthTapRepeatsTheFifth : Obligations.SixthTapRepeatsTheFifth := by
  intro x cw rows i j _ _ y
  have hsum : downAcc (fun _ => x) cw rows i j = downSum (fun _ => y) rows j := rfl
  have hdiff := downSum_eq_canonicalDownSum y rows j
  rw [hsum]
  refine ⟨hdiff, fun hin hne => ?_, fun hout => ?_, fun _ hin => downSum_interior y hin⟩
  · rw [min_eq_left hin, min_eq_left (by omega)] at hdiff
    omega
  · rw [min_eq_right (by omega), min_eq_right (by omega)] at hdiff
    omega

/-! ## The two phases -/

/-- A plane with its rows in reverse order. -/
def upsideDown (src : Nat → Nat → Byte) (cw rows : Nat) : Nat → Nat → Byte :=
  fun n k => src n ((rows - 1 - k / cw) * cw + k % cw)

theorem column_upsideDown (src : Nat → Nat → Byte) {cw i : Nat} (rows n r : Nat) (hi : i < cw) :
    column (upsideDown src cw rows) cw i n r = column src cw i n (rows - 1 - r) := by
  simp only [column, upsideDown, index_row r hi, index_col r hi]

/-- Turning the column upside down swaps the rows above `j` with those below, clamps included (spec R155, R157). -/
theorem oddSum_eq_evenSum_reversed (x : Nat → Nat → Int) {rows j : Nat} (hj : j < rows) :
    oddSum x rows j = evenSum (fun n r => x n (rows - 1 - r)) rows (rows - 1 - j) := by
  have hself : rows - 1 - (rows - 1 - j) = j := by omega
  have habove : ∀ k, rows - 1 - (rows - 1 - j - k) = min (j + k) (rows - 1) := fun k => by omega
  have hbelow : ∀ k, rows - 1 - min (rows - 1 - j + k) (rows - 1) = j - k := fun k => by omega
  simp only [evenSum, hself, habove, hbelow]
  rfl

/-- Settles O32: the columns of the turned plane are the turned columns. -/
theorem phasesMirrorEachOther : Obligations.PhasesMirrorEachOther := by
  intro x cw rows i j hi hj
  have hturned : ints (column (upsideDown x cw rows) cw i) = fun n r => ints (column x cw i) n (rows - 1 - r) := by
    funext n r
    simp only [ints, column_upsideDown x rows n r hi]
  calc upAccOdd x cw rows i j
      = evenSum (fun n r => ints (column x cw i) n (rows - 1 - r)) rows (rows - 1 - j) :=
        oddSum_eq_evenSum_reversed _ hj
    _ = upAccEven (upsideDown x cw rows) cw rows i (rows - 1 - j) := by rw [upAccEven_eq_evenSum, hturned]

/-! ## DN422 and UP420 -/

/-- The taps of an output sample find what the plane holds, each specified sample as it is (spec R46). -/
theorem columnOf_tapRead (p : Plane) (cw rows i inst n out : Nat) :
    ColumnOf p cw rows i (column (p.tapRead inst n out) cw i) :=
  fun tap _ _ _ hb => Plane.tapRead_specified hb inst n out tap

/-- What `down` computes is the plane downsampled (spec R152 to R154). -/
theorem downsampledFrom_down (p : Plane) (cw rows inst n : Nat) :
    DownsampledFrom p (down p cw rows inst n) cw rows :=
  ⟨down_length .., fun _ hi _ hr =>
    ⟨_, columnOf_tapRead p cw rows _ inst n _, _, down_get p inst n hi hr, by
      rw [downSample_eq_clip255, clip255_toNat]⟩⟩

/-- What `up` computes is the plane upsampled (spec R155 to R157). -/
theorem upsampledFrom_up (p : Plane) (cw rows inst n : Nat) :
    UpsampledFrom p (up p cw rows inst n) cw rows :=
  ⟨up_length .., fun _ hi j hj =>
    ⟨⟨_, columnOf_tapRead p cw rows _ inst n _, _, up_get p inst n hi (show 2 * j < 2 * rows by omega), by
      rw [upSample_even_eq_clip255, clip255_toNat]⟩,
    ⟨_, columnOf_tapRead p cw rows _ inst n _, _, up_get p inst n hi (show 2 * j + 1 < 2 * rows by omega), by
      rw [upSample_odd_eq_clip255, clip255_toNat]⟩⟩⟩

/-- DN422 on legal dimensions and a fitting Frame downsamples it and completes (spec R161). -/
theorem execDn422_completes {s : State} (hd : Dims s .f420) (hf : FrameFits s .f422) :
    exec .dn422 s = .next { completed s with frame := s.downFrame.frame, draws := s.downFrame.draws } := by
  rw [exec_dn422, State.dimsOk_of_dims hd, (s.frameOk_iff _).2 hf, State.runChecked_completes, State.noteW16_eq]
  rfl

/-- UP420 on legal dimensions and a fitting Frame upsamples it and completes (spec R162). -/
theorem execUp420_completes {s : State} (hd : Dims s .f420) (hf : FrameFits s .f420) :
    exec .up420 s = .next { completed s with frame := s.upFrame.frame, draws := s.upFrame.draws } := by
  rw [exec_up420, State.dimsOk_of_dims hd, (s.frameOk_iff _).2 hf, State.runChecked_completes, State.noteW16_eq]
  rfl

/-- Settles O19: DN422 completes, and `down` makes both chroma planes. -/
theorem dn422Downsamples : Obligations.Dn422Downsamples := fun _ hd hf =>
  ⟨_, execDn422_completes hd hf, rfl, downsampledFrom_down .., downsampledFrom_down ..⟩

/-- Settles O20: UP420 completes, and `up` makes both chroma planes. -/
theorem up420Upsamples : Obligations.Up420Upsamples := fun _ hd hf =>
  ⟨_, execUp420_completes hd hf, rfl, upsampledFrom_up .., upsampledFrom_up ..⟩

end Sys2Proof.Machine
end

section
/-! SUPPORT. The conversion pipeline: what CONV leaves when it completes, what its result depends on, that it loses nothing
within a family, and that it is the sequence of single commands (spec 43_conversion_pipeline.md). -/

namespace Sys2Proof.Machine

open Sys2Proof Sys2Proof.Safety

/-! ## Resampling from one family to another -/

/-- Within a family nothing is resampled (spec R180). -/
theorem State.resampleFor_self (s : State) (F : Family) : s.resampleFor F F = s := by
  cases F <;> rfl

/-- Resampling a Frame of the source family writes its chroma planes and puts it on the destination grid (spec R161,
R162, R180). -/
theorem State.resampleFor_writes {s : State} {F : Family} (G : Family) (hF : s.frame.ffam = F) :
    (s.resampleFor F G).frame =
      { s.frame with
        ffam := G, pcb := (s.resampleFor F G).frame.pcb, pcr := (s.resampleFor F G).frame.pcr } := by
  match F, G with
  | .f420, .f422 => rfl
  | .f422, .f420 => rfl
  | .f420, .f420 => rw [State.resampleFor_self, ← hF]
  | .f422, .f422 => rw [State.resampleFor_self, ← hF]

/-- Both chroma planes are resampled as the two families say (spec R180). -/
theorem State.resampleFor_resampled (s : State) (F G : Family) :
    ResampledFrom F G s.frame.pcb (s.resampleFor F G).frame.pcb s.width.toNat s.height.toNat ∧
    ResampledFrom F G s.frame.pcr (s.resampleFor F G).frame.pcr s.width.toNat s.height.toNat := by
  match F, G with
  | .f420, .f422 => exact ⟨upsampledFrom_up .., upsampledFrom_up ..⟩
  | .f422, .f420 => exact ⟨downsampledFrom_down .., downsampledFrom_down ..⟩
  | .f420, .f420 => exact ⟨rfl, rfl⟩
  | .f422, .f422 => exact ⟨rfl, rfl⟩

/-- Everything that resampling reads: the Frame, the dimensions and the next free readings. -/
def State.resamplingInput (s : State) : Frame × Dim × Dim × Nat × Nat := (s.frame, s.width, s.height, s.inst, s.draws)

theorem State.resampleFor_congr {s s' : State} (F G : Family) (h : s.resamplingInput = s'.resamplingInput) :
    (s.resampleFor F G).frame = (s'.resampleFor F G).frame := by
  simp only [State.resamplingInput, Prod.mk.injEq] at h
  obtain ⟨hframe, hwidth, hheight, hinst, hdraws⟩ := h
  have hw : s.w = s'.w := congrArg BitVec.toNat hwidth
  have hh : s.h = s'.h := congrArg BitVec.toNat hheight
  cases F <;> cases G <;>
    simp only [State.resampleFor, State.upFrame, State.downFrame, hframe, hw, hh, hinst, hdraws]

/-! ## CONV -/

/-- What CONV stores: the converted Frame (spec R181). -/
def State.converted (s : State) (fs fd : PixelFormat) : Frame :=
  ((s.loadFrame fs).resampleFor (fam fs) (fam fd)).frame

/-- `encode` of the three planes of a Frame (spec R131). -/
def Frame.encoded (fr : Frame) (f : PixelFormat) (w h : Dim) : Memory :=
  encodePlanes fr.py fr.pcb fr.pcr f w.toNat h.toNat

/-- The effect of CONV, with the converted Frame named (spec R181). -/
theorem State.convertFrame_eq (s : State) (fs fd : PixelFormat) :
    s.convertFrame fs fd =
      { s with
        frame := s.converted fs fd
        outMem := (s.converted fs fd).encoded fd s.width s.height
        outLen := BitVec.ofNat 32 (fsize fd s.width.toNat s.height.toNat)
        draws := (s.convertFrame fs fd).draws } := by
  simp only [State.convertFrame, Frame.encoded, State.converted]
  rw [State.resampleFor_frame]
  rfl

/-- CONV on dimensions legal for both families and a matching IN_LEN converts and completes (spec R181). -/
theorem execConv_completes {s : State} {fs fd : PixelFormat} (hsrc : Dims s (fam fs)) (hdst : Dims s (fam fd))
    (hlen : s.inLen.toNat = fsize fs s.width.toNat s.height.toNat) :
    ∃ n, exec (.conv (.fmt fs) (.fmt fd)) s = .next { completed s with
      frame := s.converted fs fd
      outMem := (s.converted fs fd).encoded fd s.width s.height
      outLen := BitVec.ofNat 32 (fsize fd s.width.toNat s.height.toNat)
      draws := n } := by
  have hz : s.sizeOk fs = true := beq_iff_eq.2 hlen
  have hconv : s.noteW16.converted fs fd = s.converted fs fd := State.resampleFor_congr _ _ rfl
  refine ⟨(s.noteW16.convertFrame fs fd).draws, ?_⟩
  rw [exec_conv, State.dimsOk_of_dims hsrc, State.dimsOk_of_dims hdst, hz, Bool.and_self, State.runChecked_completes,
    State.convertFrame_eq, hconv, State.noteW16_eq]
  rfl

/-- The converted Frame is on the destination grid and has the current dimensions (spec R180, R181). -/
theorem State.converted_eq (s : State) (fs fd : PixelFormat) :
    s.converted fs fd =
      ⟨true, fam fd, s.width, s.height, (decodeFrame s.inMem fs s.width s.height).py, (s.converted fs fd).pcb,
        (s.converted fs fd).pcr⟩ :=
  State.resampleFor_writes (s := s.loadFrame fs) (fam fd) rfl

/-- Settles O21: CONV completes; its Frame is the decoding of IN with the chroma resampled, and what it stores is the
encoding of that Frame, whose length a legal capacity keeps from being cut off. -/
theorem convConvertsTheFrame : Obligations.ConvConvertsTheFrame := by
  intro s fs fd hcap hsrc hdst hlen
  obtain ⟨n, hexec⟩ := execConv_completes hsrc hdst hlen
  obtain ⟨hcb, hcr⟩ := (s.loadFrame fs).resampleFor_resampled (fam fs) (fam fd)
  have hframe := s.converted_eq fs fd
  refine ⟨_, _, _, hexec, rfl, ?_, hcb, hcr, ?_, ?_, ?_, ?_, encodedFrom_encodePlanes hdst _ _ _,
    outLen_toNat_of_fsize hcap (fsize_le_cap (State.dimsOk_of_dims hdst))⟩
  · exact (congrArg Frame.py hframe) ▸ decodedFrom_decodeFrame s.inMem fs s.width s.height
  · exact congrArg Frame.fv hframe
  · exact congrArg Frame.ffam hframe
  · exact congrArg Frame.fw hframe
  · exact congrArg Frame.fh hframe

/-! ## What the result depends on -/

/-- Raw frames that agree below the frame size decode alike (spec R114, R130). -/
theorem decodeFrame_congr {cap : Nat} {f : PixelFormat} {w h : Dim} (hd : LegalDims cap (fam f) w.toNat h.toNat)
    {raw raw' : Memory} (hagree : ∀ k < fsize f w.toNat h.toNat, raw.read k = raw'.read k) :
    decodeFrame raw f w h = decodeFrame raw' f w h := by
  have hgather : ∀ a ∈ [(layout f w.toNat h.toNat).y, (layout f w.toNat h.toNat).cb, (layout f w.toNat h.toNat).cr],
      gather raw a = gather raw' a := fun a ha =>
    gather_congr fun k hk => hagree _ (layout_offset_lt_fsize ((dimsOk_iff _ _ _ _).2 hd) a ha k hk)
  simp only [List.forall_mem_cons, List.not_mem_nil, false_implies, implies_true, and_true] at hgather
  obtain ⟨hy, hcb, hcr⟩ := hgather
  simp only [decodeFrame, hy, hcb, hcr]

theorem State.loadFrame_resamplingInput (s : State) (f : PixelFormat) :
    (s.loadFrame f).resamplingInput = (decodeFrame s.inMem f s.width s.height, s.width, s.height, s.inst, s.draws) :=
  rfl

/-- A CONV for which no check of spec R198 finds a fault has legal dimensions and a matching IN_LEN. -/
theorem conv_legal_of_firstFault {s : State} {fs fd : PixelFormat}
    (h : firstFault (.conv (.fmt fs) (.fmt fd)) s = none) :
    Dims s (fam fs) ∧ Dims s (fam fd) ∧ s.inLen.toNat = fsize fs s.width.toNat s.height.toNat := by
  simp only [firstFault, ite_eq_iff, reduceCtorEq, and_false, false_or, and_true, Bool.not_eq_true', Bool.not_eq_false,
    Bool.and_eq_true, decide_eq_true_eq, not_not] at h
  obtain ⟨⟨hsrc, hdst⟩, hlen⟩ := h
  exact ⟨hsrc, hdst, hlen⟩

/-- Settles O27: equal raw frames decode alike, and the rest of the pipeline reads only what the two states share. -/
theorem convIgnoresTheOldFrame : Obligations.ConvIgnoresTheOldFrame := by
  intro s s' t t' fs fd hcap hwidth hheight hlen hinst hdraws hraw ht ht' hnone
  obtain ⟨hsrc, hdst, hsize⟩ := conv_legal_of_firstFault hnone
  have hload : (s.loadFrame fs).resamplingInput = (s'.loadFrame fs).resamplingInput := by
    rw [State.loadFrame_resamplingInput, State.loadFrame_resamplingInput, decodeFrame_congr hsrc hraw, hwidth, hheight,
      hinst, hdraws]
  have hconv : s.converted fs fd = s'.converted fs fd := State.resampleFor_congr _ _ hload
  obtain ⟨n, hexec⟩ := execConv_completes hsrc hdst hsize
  rw [Dims, hcap, hwidth, hheight] at hsrc hdst
  rw [hlen, hwidth, hheight] at hsize
  obtain ⟨n', hexec'⟩ := execConv_completes (s := s') hsrc hdst hsize
  cases ht.symm.trans hexec
  cases ht'.symm.trans hexec'
  exact ⟨by rw [hconv, hwidth, hheight], by rw [hwidth, hheight], hconv⟩

/-! ## Conversion within a family -/

/-- Within a family the converted Frame is the decoded one (spec R184). -/
theorem State.converted_of_same_family (s : State) {fs fd : PixelFormat} (h : fam fs = fam fd) :
    s.converted fs fd = decodeFrame s.inMem fs s.width s.height := by
  rw [State.converted, ← h, State.resampleFor_self]
  rfl

/-- Encoding a decoded raw frame in its own format gives back every byte below the frame size (spec R134). -/
theorem encoded_decodeFrame_read {cap : Nat} {f : PixelFormat} {w h : Dim}
    (hd : LegalDims cap (fam f) w.toNat h.toNat) (raw : Memory) {o : Nat} (ho : o < fsize f w.toNat h.toNat) :
    ((decodeFrame raw f w h).encoded f w h).read o = raw.read o := by
  obtain ⟨hy, hcb, hcr, -⟩ := encodedFrom_encodePlanes hd (decodeFrame raw f w h).py (decodeFrame raw f w h).pcb
    (decodeFrame raw f w h).pcr
  obtain ⟨p, k, hk, rfl⟩ := exists_sample hd ho
  match p with
  | 0 => exact (hy k hk).trans (scatteredTo_gather raw _ k hk).symm
  | 1 => exact (hcb k hk).trans (scatteredTo_gather raw _ k hk).symm
  | 2 => exact (hcr k hk).trans (scatteredTo_gather raw _ k hk).symm

/-- A decoded raw frame, encoded in another format of its family, decodes to the same Frame (spec R134, R184). -/
theorem decodeFrame_encoded_of_same_family {cap : Nat} {fs fd : PixelFormat} {w h : Dim} (hfam : fam fs = fam fd)
    (hd : LegalDims cap (fam fd) w.toNat h.toNat) (raw : Memory) :
    decodeFrame ((decodeFrame raw fs w h).encoded fd w h) fd w h = decodeFrame raw fs w h := by
  obtain ⟨hy, hcb, hcr⟩ := layout_counts fs w.toNat h.toNat
  obtain ⟨hy', hcb', hcr'⟩ := layout_counts fd w.toNat h.toNat
  rw [← hfam] at hcb' hcr'
  rw [Frame.encoded, (codecRoundTrips fd cap w h hd).1, ← hfam]
  · rfl
  · exact (gather_length _ _).trans (hy.trans hy'.symm)
  · exact (gather_length _ _).trans (hcb.trans hcb'.symm)
  · exact (gather_length _ _).trans (hcr.trans hcr'.symm)

theorem fsize_of_same_family {fs fd : PixelFormat} (hfam : fam fs = fam fd) (w h : Nat) :
    fsize fs w h = fsize fd w h := by
  rw [fsize, fsize, hfam]

/-- A CONV within a family leaves the decoded Frame as it is, and in OUT the same planes in the destination format (spec
R181, R184). -/
theorem execConv_of_same_family {s t : State} {fs fd : PixelFormat}
    (ht : exec (.conv (.fmt fs) (.fmt fd)) s = .next t) (hfam : fam fs = fam fd) (hd : Dims s (fam fs))
    (hlen : s.inLen.toNat = fsize fs s.width.toNat s.height.toNat) :
    ∃ n, t = { completed s with
      frame := decodeFrame s.inMem fs s.width s.height
      outMem := (decodeFrame s.inMem fs s.width s.height).encoded fd s.width s.height
      outLen := s.inLen
      draws := n } := by
  obtain ⟨n, hexec⟩ := execConv_completes hd (hfam ▸ hd) hlen
  refine ⟨n, Host.Outcome.next.inj (ht.symm.trans hexec) ▸ ?_⟩
  rw [s.converted_of_same_family hfam, ← fsize_of_same_family hfam, ← hlen, BitVec.ofNat_toNat, BitVec.setWidth_eq]

/-- Settles O26: the conversion there and the one back both keep the decoded Frame, and encoding it in its first format
gives back the bytes it was decoded from. -/
theorem sameFamilyConversionIsLossless : Obligations.SameFamilyConversionIsLossless := by
  intro s t u v fs fd hfam hd hlen hcap ht hu hv
  have hd' : Dims s (fam fd) := hfam ▸ hd
  obtain ⟨n, rfl⟩ := execConv_of_same_family ht hfam hd hlen
  subst hu
  obtain ⟨m, rfl⟩ := execConv_of_same_family hv hfam.symm hd' (hlen.trans (fsize_of_same_family hfam _ _))
  have hback := decodeFrame_encoded_of_same_family hfam hd' s.inMem
  refine ⟨decodedFrom_decodeFrame .., encodedFrom_encodePlanes hd' .., rfl, rfl, congrArg Frame.py hback,
    congrArg Frame.pcb hback, congrArg Frame.pcr hback, fun k hk => ?_, fun hf k hk => ?_⟩
  · exact (congrArg (fun fr => (fr.encoded fs s.width s.height).read k) hback).trans (encoded_decodeFrame_read hd _ hk)
  · subst hf
    exact encoded_decodeFrame_read hd _ hk

/-! ## A run of commands -/

theorem run_of_step {s t : State} (h : step s = .next t) (k : Nat) :
    Host.Core.run Sys2Proof.core (k + 1) s = Host.Core.run Sys2Proof.core k t := by
  have hcore : Sys2Proof.core.step s = .next t := h
  simp only [Host.Core.run, hcore]

theorem runTurns_nil (s : State) : runTurns s [] = .next { s with turns := [] } := rfl

/-- The engine about to take its turn in a sequence of commands: `i` is latched, `is` are to come (spec R31, R97). -/
def State.commanded (s : State) (i : Instr) (is : List Instr) : State :=
  { s.issue (encode i) with turns := commandTurns is }

/-- While idle without a fault, a command of a sequence is issued and runs (spec R25, R31). -/
theorem runTurns_command {s t : State} {i : Instr} {is : List Instr} (hp : s.phase = .idle) (he : s.err = none)
    (hwf : i.wellFormed = true) (hexec : exec i (s.commanded i is) = .next t) :
    runTurns s (commandTurns (i :: is)) = runTurns t (commandTurns is) := by
  have hissue : step { s with turns := commandTurns (i :: is) } =
      .next { s.issue (encode i) with turns := .engine :: commandTurns is } := step_regWrite rfl (if_pos ⟨hp, he⟩)
  have hrun : step { s.issue (encode i) with turns := .engine :: commandTurns is } = .next t :=
    (runWord_of_command (encodedCommandsDecodeBack i hwf) _).trans hexec
  have hturns : t.turns = commandTurns is := (congrArg State.turns (exec_end hexec).frame_eq).trans rfl
  have hrest : runTurns t (commandTurns is) = Host.Core.run Sys2Proof.core (commandTurns is).length t := by
    rw [runTurns, ← hturns]
  exact ((run_of_step hissue _).trans (run_of_step hrun _)).trans hrest.symm

/-- While a fault is latched, a command of a sequence is discarded (spec R31, R203). -/
theorem runTurns_discard {s : State} (i : Instr) (is : List Instr) (hp : s.phase = .idle) (he : s.err ≠ none) :
    runTurns s (commandTurns (i :: is)) = runTurns s.discardWrite (commandTurns is) := by
  have hdiscard : step { s with turns := commandTurns (i :: is) } =
      .next { s.discardWrite with turns := .engine :: commandTurns is } :=
    step_regWrite rfl (if_neg fun hn => he hn.2)
  have hidle : step { s.discardWrite with turns := .engine :: commandTurns is } =
      .next { s.discardWrite with turns := commandTurns is } := engineTurn_of_idle hp
  exact (run_of_step hdiscard _).trans (run_of_step hidle _)

/-! ## The sequence of single commands -/

/-- What decides the checks of a command beside the Frame, and what no command changes (spec R70, R198). -/
def State.settings (s : State) : Nat × Dim × Dim × Word := (s.cap, s.width, s.height, s.inLen)

theorem State.settings_eq_iff {r s : State} :
    r.settings = s.settings ↔ r.cap = s.cap ∧ r.width = s.width ∧ r.height = s.height ∧ r.inLen = s.inLen := by
  simp [State.settings]

theorem CommandEnd.settings_eq {s t : State} (h : CommandEnd s t) : t.settings = s.settings :=
  (congrArg State.settings h.frame_eq).trans rfl

/-- Command `i` takes a fault in every state with the settings of `s`, whatever else it holds. -/
def AlwaysFaults (s : State) (i : Instr) : Prop :=
  ∀ r t : State, r.settings = s.settings → exec i r = .next t → t.err ≠ none

/-- A sequence with such a command ends with a fault latched, its own or an earlier one (spec R203). -/
theorem runTurns_faults {is : List Instr} (hwf : ∀ i ∈ is, i.wellFormed = true) : ∀ {s : State}, s.phase = .idle →
    (s.err ≠ none ∨ ∃ i ∈ is, AlwaysFaults s i) →
    ∃ u, runTurns s (commandTurns is) = .next u ∧ u.err ≠ none := by
  induction is with
  | nil =>
    intro s _ h
    exact ⟨_, runTurns_nil s, h.resolve_right (by simp)⟩
  | cons i is ih =>
    intro s hp h
    obtain ⟨hi, his⟩ := List.forall_mem_cons.1 hwf
    by_cases he : s.err = none
    · obtain ⟨t, hexec⟩ := exec_next i (s.commanded i is)
      have hend := exec_end hexec
      rw [runTurns_command hp he hi hexec]
      refine ih his hend.phase_idle ?_
      obtain ⟨j, hj, hfault⟩ := h.resolve_left (not_not.2 he)
      have hsettings : t.settings = s.settings := hend.settings_eq
      rcases List.mem_cons.1 hj with rfl | hj
      · exact .inl (hfault (s.commanded j is) t rfl hexec)
      · exact .inr ⟨j, hj, fun r t' hr => hfault r t' (hr.trans hsettings)⟩
    · rw [runTurns_discard i is hp he]
      exact ih his hp (.inl he)

theorem State.runChecked_faults {s t : State} {dims size frame : Bool} {effect : State → State}
    (hfail : dims = false ∨ size = false) (h : s.runChecked dims size frame effect = .next t) : t.err ≠ none := by
  rcases State.runChecked_cases h with ⟨-, rfl⟩ | ⟨-, -, rfl⟩ | ⟨-, -, -, rfl⟩ | ⟨hd, hz, -⟩
  · simp
  · simp
  · simp
  · simp [hd, hz] at hfail

section settings

variable {r s : State} (h : r.settings = s.settings)
include h

theorem State.dimsOk_of_settings (F : Family) : r.dimsOk F = s.dimsOk F :=
  congrArg (fun (cap, w, h, _) => Machine.dimsOk cap F w.toNat h.toNat) h

theorem State.sizeOk_of_settings (f : PixelFormat) : r.sizeOk f = s.sizeOk f :=
  congrArg (fun (_, w, h, len) => len.toNat == fsize f w.toNat h.toNat) h

theorem dims_of_settings (F : Family) : Dims r F = Dims s F :=
  congrArg (fun (cap, w, h, _) => LegalDims cap F w.toNat h.toNat) h

theorem State.notMultipleOf16_of_settings : r.notMultipleOf16 = s.notMultipleOf16 :=
  congrArg (fun (_, w, h, _) => w.toNat % 16 != 0 || h.toNat % 16 != 0) h

end settings

section faulting

variable {s : State} {f fs fd : PixelFormat}

/-- A command that raises a fault before all checks on the state, for a tag that names no format (spec R192). -/
theorem alwaysFaults_of_raise {i : Instr} {k : FaultKind} (hraise : ∀ r, exec i r = .next (r.raise k)) :
    AlwaysFaults s i := fun r t _ h => by
  cases (hraise r).symm.trans h
  simp

theorem alwaysFaults_dec (hfail : s.dimsOk (fam f) = false ∨ s.sizeOk f = false) :
    AlwaysFaults s (.dec (.fmt f)) := fun r t hr h => by
  rw [← State.dimsOk_of_settings hr, ← State.sizeOk_of_settings hr] at hfail
  exact State.runChecked_faults hfail ((exec_dec f r).symm.trans h)

theorem alwaysFaults_enc (hfail : s.dimsOk (fam f) = false) : AlwaysFaults s (.enc (.fmt f)) := fun r t hr h => by
  rw [← State.dimsOk_of_settings hr] at hfail
  exact State.runChecked_faults (.inl hfail) ((exec_enc f r).symm.trans h)

theorem alwaysFaults_conv (hfail : (s.dimsOk (fam fs) && s.dimsOk (fam fd)) = false ∨ s.sizeOk fs = false) :
    AlwaysFaults s (.conv (.fmt fs) (.fmt fd)) := fun r t hr h => by
  rw [← State.dimsOk_of_settings hr, ← State.dimsOk_of_settings hr, ← State.sizeOk_of_settings hr] at hfail
  exact State.runChecked_faults hfail ((exec_conv fs fd r).symm.trans h)

end faulting

/-- A CONV that cannot complete faults, and so does the DEC or the ENC of its sequence: DEC makes the checks of the
source format and ENC those of the destination (spec R182, R198). -/
theorem conv_legal_or_faults (s : State) (fa fb : Tag) :
    (∃ fs fd, fa = .fmt fs ∧ fb = .fmt fd ∧ Dims s (fam fs) ∧ Dims s (fam fd) ∧
      s.inLen.toNat = fsize fs s.width.toNat s.height.toNat) ∨
    (AlwaysFaults s (.conv fa fb) ∧ (AlwaysFaults s (.dec fa) ∨ AlwaysFaults s (.enc fb))) := by
  match fa, fb with
  | .unlisted _, _ =>
    exact .inr ⟨alwaysFaults_of_raise fun _ => rfl, .inl (alwaysFaults_of_raise fun _ => rfl)⟩
  | .fmt _, .unlisted _ =>
    exact .inr ⟨alwaysFaults_of_raise fun _ => rfl, .inr (alwaysFaults_of_raise fun _ => rfl)⟩
  | .fmt fs, .fmt fd =>
    cases hsrc : s.dimsOk (fam fs) with
    | false => exact .inr ⟨alwaysFaults_conv (.inl (by simp [hsrc])), .inl (alwaysFaults_dec (.inl hsrc))⟩
    | true =>
      cases hdst : s.dimsOk (fam fd) with
      | false => exact .inr ⟨alwaysFaults_conv (.inl (by simp [hdst])), .inr (alwaysFaults_enc hdst)⟩
      | true =>
        cases hlen : s.sizeOk fs with
        | false => exact .inr ⟨alwaysFaults_conv (.inr hlen), .inl (alwaysFaults_dec (.inr hlen))⟩
        | true =>
          exact .inl ⟨fs, fd, rfl, rfl, (dimsOk_iff _ _ _ _).1 hsrc, (dimsOk_iff _ _ _ _).1 hdst, beq_iff_eq.1 hlen⟩

/-- The commands between the DEC and the ENC of the sequence (spec R180, R182). -/
def resampling : Family → Family → List Instr
  | .f420, .f422 => [.up420]
  | .f422, .f420 => [.dn422]
  | .f420, .f420 => []
  | .f422, .f422 => []

theorem resampling_wellFormed (F G : Family) : ∀ i ∈ resampling F G, i.wellFormed = true := by
  cases F <;> cases G <;> simp [resampling, Instr.wellFormed]

theorem convSequence_fmt (fs fd : PixelFormat) :
    convSequence (.fmt fs) (.fmt fd) = .dec (.fmt fs) :: (resampling (fam fs) (fam fd) ++ [.enc (.fmt fd)]) := by
  simp only [convSequence]
  cases fam fs <;> cases fam fd <;> rfl

/-- The sequence begins with the DEC and ends with the ENC (spec R182). -/
theorem convSequence_eq (fa fb : Tag) :
    ∃ mid, convSequence fa fb = .dec fa :: (mid ++ [.enc fb]) ∧ ∀ i ∈ mid, i.wellFormed = true := by
  match fa, fb with
  | .unlisted _, _ => exact ⟨[], rfl, by simp⟩
  | .fmt _, .unlisted _ => exact ⟨[], rfl, by simp⟩
  | .fmt fs, .fmt fd => exact ⟨_, convSequence_fmt fs fd, resampling_wellFormed _ _⟩

/-- Where the DEC or the ENC is sure to fault, the sequence ends with a fault latched (spec R182, R203). -/
theorem convSequence_faults {s : State} {fa fb : Tag} (hfa : fa.wellFormed = true) (hfb : fb.wellFormed = true)
    (hp : s.phase = .idle) (hfault : AlwaysFaults s (.dec fa) ∨ AlwaysFaults s (.enc fb)) :
    ∃ u, runTurns s (commandTurns (convSequence fa fb)) = .next u ∧ u.err ≠ none := by
  obtain ⟨mid, hseq, hmid⟩ := convSequence_eq fa fb
  rw [hseq]
  refine runTurns_faults ?_ hp (.inr ?_)
  · simp only [List.forall_mem_cons, List.forall_mem_append]
    exact ⟨hfa, hmid, hfb, by simp⟩
  · exact hfault.elim (fun h => ⟨_, by simp, h⟩) fun h => ⟨_, by simp, h⟩

/-- `r` is `s` after commands that completed, as far as later commands can tell, what those have written aside (spec
R207). -/
structure ReadyAfter (s r : State) : Prop where
  idle : r.phase = .idle
  noFault : r.err = none
  settings : r.settings = s.settings
  /-- The warning has been noted (spec R116). -/
  w16 : r.w16 = warned s

theorem warned_eq_or (s : State) : warned s = (s.w16 || s.notMultipleOf16) := Bool.or_assoc ..

/-- Noting the warning again changes nothing (spec R116). -/
theorem ReadyAfter.warned_eq {s r : State} (h : ReadyAfter s r) : warned r = warned s := by
  rw [warned_eq_or r, h.w16, State.notMultipleOf16_of_settings h.settings, warned_eq_or s, Bool.or_assoc, Bool.or_self]

theorem ReadyAfter.trans {s d r : State} (hd : ReadyAfter s d) (hr : ReadyAfter d r) : ReadyAfter s r :=
  ⟨hr.idle, hr.noFault, hr.settings.trans hd.settings, hr.w16.trans hd.warned_eq⟩

/-- The DEC of the sequence leaves what CONV resamples (spec R132, R182). -/
theorem runTurns_dec {s : State} {f : PixelFormat} (is : List Instr) (hp : s.phase = .idle) (he : s.err = none)
    (hd : Dims s (fam f)) (hlen : s.inLen.toNat = fsize f s.width.toNat s.height.toNat) :
    ∃ d, runTurns s (commandTurns (.dec (.fmt f) :: is)) = runTurns d (commandTurns is) ∧ ReadyAfter s d ∧
      FrameFits d (fam f) ∧ d.resamplingInput = (s.loadFrame f).resamplingInput :=
  ⟨_, runTurns_command hp he rfl (execDec_completes hd hlen), ⟨rfl, he, rfl, rfl⟩, ⟨rfl, rfl, rfl, rfl⟩, rfl⟩

/-- The resampler of the sequence, if there is one, does to the Frame what CONV does (spec R180, R182). -/
theorem runTurns_resampling {s d : State} {F : Family} (G : Family) (is : List Instr) (hready : ReadyAfter s d)
    (hF : Dims s F) (hG : Dims s G) (hf : FrameFits d F) :
    ∃ r, runTurns d (commandTurns (resampling F G ++ is)) = runTurns r (commandTurns is) ∧ ReadyAfter s r ∧
      r.frame = (d.resampleFor F G).frame := by
  have hp := hready.idle
  have he := hready.noFault
  rw [← dims_of_settings hready.settings] at hF hG
  match F, G with
  | .f420, .f422 =>
    exact ⟨_, runTurns_command hp he rfl (execUp420_completes hF hf), hready.trans ⟨rfl, he, rfl, rfl⟩, rfl⟩
  | .f422, .f420 =>
    exact ⟨_, runTurns_command hp he rfl (execDn422_completes hG hf), hready.trans ⟨rfl, he, rfl, rfl⟩, rfl⟩
  | .f420, .f420 => exact ⟨d, rfl, hready, rfl⟩
  | .f422, .f422 => exact ⟨d, rfl, hready, rfl⟩

/-- The ENC that ends the sequence stores the Frame (spec R133, R182). -/
theorem runTurns_enc {s r : State} {f : PixelFormat} (hready : ReadyAfter s r) (hd : Dims s (fam f))
    (hf : FrameFits r (fam f)) :
    ∃ u, runTurns r (commandTurns [.enc (.fmt f)]) = .next u ∧ ReadyAfter s u ∧ u.frame = r.frame ∧
      u.outMem = r.frame.encoded f s.width s.height ∧
      u.outLen = BitVec.ofNat 32 (fsize f s.width.toNat s.height.toNat) := by
  obtain ⟨-, hwidth, hheight, -⟩ := State.settings_eq_iff.1 hready.settings
  rw [← dims_of_settings hready.settings] at hd
  rw [← hwidth, ← hheight]
  exact ⟨_, (runTurns_command hready.idle hready.noFault rfl (execEnc_completes hd hf)).trans (runTurns_nil _),
    hready.trans ⟨rfl, hready.noFault, rfl, rfl⟩, rfl, rfl, rfl⟩

/-- On dimensions legal for both families and a matching IN_LEN the sequence completes with the converted Frame and its
encoding (spec R182). -/
theorem convSequence_completes {s : State} {fs fd : PixelFormat} (hp : s.phase = .idle) (he : s.err = none)
    (hsrc : Dims s (fam fs)) (hdst : Dims s (fam fd)) (hlen : s.inLen.toNat = fsize fs s.width.toNat s.height.toNat) :
    ∃ u, runTurns s (commandTurns (convSequence (.fmt fs) (.fmt fd))) = .next u ∧ ReadyAfter s u ∧
      u.frame = s.converted fs fd ∧ u.outMem = (s.converted fs fd).encoded fd s.width s.height ∧
      u.outLen = BitVec.ofNat 32 (fsize fd s.width.toNat s.height.toNat) := by
  rw [convSequence_fmt]
  obtain ⟨d, hdec, hd, hdfits, hinput⟩ := runTurns_dec _ hp he hsrc hlen
  obtain ⟨r, hres, hr, hresampled⟩ := runTurns_resampling (fam fd) [.enc (.fmt fd)] hd hsrc hdst hdfits
  have hframe : r.frame = s.converted fs fd := hresampled.trans (State.resampleFor_congr _ _ hinput)
  obtain ⟨-, hwidth, hheight, -⟩ := State.settings_eq_iff.1 hr.settings
  have hrfits : FrameFits r (fam fd) := by
    rw [FrameFits, hframe, s.converted_eq fs fd, hwidth, hheight]
    exact ⟨rfl, rfl, rfl, rfl⟩
  obtain ⟨u, henc, hu, huframe, hmem, hlen'⟩ := runTurns_enc hr hdst hrfits
  rw [hframe] at huframe hmem
  exact ⟨u, hdec.trans (hres.trans henc), hu, huframe, hmem, hlen'⟩

/-- Settles O25: where CONV can complete, the sequence makes the same Frame step by step; where it cannot, DEC or ENC
makes the check that fails. -/
theorem convEqualsTheSequence : Obligations.ConvEqualsTheSequence := by
  intro s t fa fb hfa hfb hp he ht
  have hwf : (Instr.conv fa fb).wellFormed = true := Bool.and_eq_true_iff.2 ⟨hfa, hfb⟩
  rcases conv_legal_or_faults s fa fb with ⟨fs, fd, rfl, rfl, hsrc, hdst, hlen⟩ | ⟨hconv, hseq⟩
  · obtain ⟨u, hrun, hu, huframe, humem, hulen⟩ := convSequence_completes hp he hsrc hdst hlen
    obtain ⟨n, hexec⟩ := execConv_completes (s := s.commanded (.conv (.fmt fs) (.fmt fd)) []) hsrc hdst hlen
    have hsame : (s.commanded (.conv (.fmt fs) (.fmt fd)) []).converted fs fd = s.converted fs fd :=
      State.resampleFor_congr _ _ rfl
    rw [hsame] at hexec
    rw [runTurns_command hp he hwf hexec] at ht
    cases ht
    exact ⟨u, hrun, fun _ => ⟨hu.noFault, huframe, humem, hulen, hu.w16⟩, fun hn => absurd he hn⟩
  · obtain ⟨t', hexec⟩ := exec_next (.conv fa fb) (s.commanded (.conv fa fb) [])
    have hfault : t'.err ≠ none := hconv (s.commanded _ []) t' rfl hexec
    rw [runTurns_command hp he hwf hexec] at ht
    cases ht
    obtain ⟨u, hrun, hu⟩ := convSequence_faults hfa hfb hp hseq
    exact ⟨u, hrun, fun hn => absurd hn hfault, fun _ => hu⟩

end Sys2Proof.Machine
end

section
/-! SUPPORT. The faults: the check that fails decides which one a command takes, what a fault leaves alone, what clears
it, and that the engines of a chip share nothing (spec 60_exceptions.md). -/

namespace Sys2Proof.Machine

open Sys2Proof Sys2Proof.Safety

/-! ## Fault entry -/

theorem State.raise_eq (s : State) (k : FaultKind) : s.raise k = faulted s k := rfl

/-- Fault entry once the warning is noted (spec R198, R200). -/
theorem State.noteW16_raise_eq (s : State) (k : FaultKind) : s.noteW16.raise k = faultedWarned s k := by
  rw [State.noteW16_eq]
  rfl

theorem runWord_of_illegal {w : Word} {r : Illegal} (h : decode w = .illegal r) (s : State) :
    runWord w s = .next (faulted s .illegalCommand) := by
  simp only [runWord, h, State.raise_eq]

/-- Settles O7: the engine's turn while busy runs the latched word, and an illegal one is fault entry alone. -/
theorem illegalWordTakesTheFault : Obligations.IllegalWordTakesTheFault := fun s r hturn hbusy hdec => by
  rw [step_of_engineTurn hturn, engineTurn_of_busy (s := { s with turns := s.turns.tail }) hbusy]
  exact ⟨runWord_of_illegal hdec _, rfl⟩

/-- Settles O10: every command looks at its tags first, CONV at both. -/
theorem unlistedTagTakesUnsupportedFormat : Obligations.UnlistedTagTakesUnsupportedFormat := fun s n g => by
  refine ⟨rfl, rfl, rfl, rfl, ?_, rfl⟩
  cases g <;> rfl

/-! ## The check that fails -/

section checks

variable (s : State) (size frame : Bool) (effect : State → State)

/-- Step 3 of spec R198. -/
theorem State.runChecked_dimError : s.runChecked false size frame effect = .next (faulted s .dimError) := rfl

/-- Step 5 of spec R198. -/
theorem State.runChecked_sizeMismatch :
    s.runChecked true false frame effect = .next (faultedWarned s .sizeMismatch) := by
  rw [← State.noteW16_raise_eq]
  rfl

/-- Step 6 of spec R198. -/
theorem State.runChecked_frameError :
    s.runChecked true true false effect = .next (faultedWarned s .frameError) := by
  rw [← State.noteW16_raise_eq]
  rfl

end checks

theorem State.dimsOk_of_not_dims {s : State} {F : Family} (h : ¬ Dims s F) : s.dimsOk F = false :=
  Bool.eq_false_iff.2 fun hd => h ((dimsOk_iff _ _ _ _).1 hd)

theorem State.sizeOk_of_ne {s : State} {f : PixelFormat} (h : s.inLen.toNat ≠ fsize f s.width.toNat s.height.toNat) :
    s.sizeOk f = false := beq_eq_false_iff_ne.2 h

theorem State.frameOk_of_not_frameFits {s : State} {F : Family} (h : ¬ FrameFits s F) : s.frameOk F = false :=
  Bool.eq_false_iff.2 fun hf => h ((s.frameOk_iff F).1 hf)

/-- Settles O11: the dimension check is the first of all six commands; CONV makes it for both families. -/
theorem badDimensionsTakeDimError : Obligations.BadDimensionsTakeDimError := by
  intro s f g
  refine ⟨fun hd => ?_, fun hd => ?_, fun hd => ?_, rfl⟩
  · rw [exec_layout, exec_dec, exec_enc, State.dimsOk_of_not_dims hd]
    exact ⟨rfl, rfl, rfl⟩
  · rw [exec_dn422, exec_up420, State.dimsOk_of_not_dims hd]
    exact ⟨rfl, rfl⟩
  · have hboth : (s.dimsOk (fam f) && s.dimsOk (fam g)) = false :=
      Bool.and_eq_false_iff.2 ((not_and_or.1 hd).imp State.dimsOk_of_not_dims State.dimsOk_of_not_dims)
    rw [exec_conv, hboth, State.runChecked_dimError]

/-- While a fault is latched a write to CMD is discarded (spec R31, R203). -/
theorem State.writeCmd_of_fault {s : State} (he : s.err ≠ none) (v : Word) : s.writeCmd v = s.discardWrite :=
  if_neg fun h => he h.2

/-- Settles O12: past the dimension check DEC and CONV compare IN_LEN with the source frame size. -/
theorem wrongLengthTakesSizeMismatch : Obligations.WrongLengthTakesSizeMismatch := by
  intro s f g hlen
  refine ⟨fun hd => ?_, fun hf hg => ?_, rfl, fun v => ?_⟩
  · rw [exec_dec, State.dimsOk_of_dims hd, State.sizeOk_of_ne hlen, State.runChecked_sizeMismatch]
  · rw [exec_conv, State.dimsOk_of_dims hf, State.dimsOk_of_dims hg, Bool.and_self, State.sizeOk_of_ne hlen,
      State.runChecked_sizeMismatch]
  · exact State.writeCmd_of_fault (s := faultedWarned s .sizeMismatch) (Option.some_ne_none _) v

/-- Settles O13: past the dimension check ENC, DN422 and UP420 look at the Frame. -/
theorem unfitFrameTakesFrameError : Obligations.UnfitFrameTakesFrameError := by
  intro s f
  refine ⟨fun hd hf => ?_, fun hd hf => ?_, fun hd hf => ?_, rfl⟩
  · rw [exec_enc, State.dimsOk_of_dims hd, State.frameOk_of_not_frameFits hf, State.runChecked_frameError]
  · rw [exec_dn422, State.dimsOk_of_dims hd, State.frameOk_of_not_frameFits hf, State.runChecked_frameError]
  · rw [exec_up420, State.dimsOk_of_dims hd, State.frameOk_of_not_frameFits hf, State.runChecked_frameError]

/-! ## The order of the checks -/

/-- The fault that the three checks of `runChecked` decide, in their order (spec R198, steps 3, 5 and 6). -/
def checkedFault (dims size frame : Bool) : Option FaultKind :=
  if !dims then some .dimError else if !size then some .sizeMismatch else if !frame then some .frameError else none

/-- How a command ends by the fault its checks decide: fault entry, with the warning noted if the dimension check is
passed, or completion (spec R198). -/
def DecidedEnd (s t : State) : Option FaultKind → Prop
  | some k => t = if k = .unsupportedFormat ∨ k = .dimError then faulted s k else faultedWarned s k
  | none => t.done = true ∧ t.err = s.err ∧ t.w16 = warned s ∧ t.phase = .idle

theorem State.runChecked_decidedEnd {s t : State} {dims size frame : Bool} {effect : State → State}
    (h : s.runChecked dims size frame effect = .next t)
    (heff : dims = true → size = true → frame = true → CommandEffect s.noteW16 (effect s.noteW16)) :
    DecidedEnd s t (checkedFault dims size frame) := by
  rcases State.runChecked_cases h with ⟨rfl, rfl⟩ | ⟨rfl, rfl, rfl⟩ | ⟨rfl, rfl, rfl, rfl⟩ | ⟨rfl, rfl, rfl, rfl⟩
  · exact s.raise_eq _
  · exact s.noteW16_raise_eq _
  · exact s.noteW16_raise_eq _
  · have heff := heff rfl rfl rfl
    exact ⟨rfl, heff.err_eq, heff.w16_eq.trans (warned_eq_or s).symm, rfl⟩

section firstFault

variable (s : State)

/-! The model's checks decide what the statement's own `firstFault` does, command by command. -/

theorem State.dimsOk_eq_decide (F : Family) :
    s.dimsOk F = decide (2 ≤ s.width.toNat ∧ s.width.toNat % 2 = 0 ∧ 1 ≤ s.height.toNat ∧
      (F = .f422 ∨ s.height.toNat % 2 = 0) ∧ 2 * s.width.toNat * s.height.toNat ≤ s.cap) :=
  Bool.eq_iff_iff.2 ((dimsOk_iff _ _ _ _).trans decide_eq_true_iff.symm)

theorem State.frameOk_eq_decide (F : Family) :
    s.frameOk F = decide (s.frame.fv = true ∧ s.frame.fw = s.width ∧ s.frame.fh = s.height ∧ s.frame.ffam = F) :=
  Bool.eq_iff_iff.2 ((s.frameOk_iff F).trans decide_eq_true_iff.symm)

/-- The size check as `firstFault` writes it. -/
theorem State.not_sizeOk_iff (f : PixelFormat) :
    (!s.sizeOk f) = true ↔ s.inLen.toNat ≠ fsize f s.width.toNat s.height.toNat := by
  simp [State.sizeOk, State.w, State.h]

theorem firstFault_layout (f : PixelFormat) :
    firstFault (.layout (.fmt f)) s = checkedFault (s.dimsOk (fam f)) true true := by
  simp only [firstFault, ← s.dimsOk_eq_decide]
  cases s.dimsOk (fam f) <;> rfl

theorem firstFault_dec (f : PixelFormat) :
    firstFault (.dec (.fmt f)) s = checkedFault (s.dimsOk (fam f)) (s.sizeOk f) true := by
  rw [s.dimsOk_eq_decide]
  simp only [firstFault, checkedFault, s.not_sizeOk_iff]
  rfl

theorem firstFault_enc (f : PixelFormat) :
    firstFault (.enc (.fmt f)) s = checkedFault (s.dimsOk (fam f)) true (s.frameOk (fam f)) := by
  rw [s.dimsOk_eq_decide, s.frameOk_eq_decide]
  rfl

theorem firstFault_dn422 : firstFault .dn422 s = checkedFault (s.dimsOk .f420) true (s.frameOk .f422) := by
  rw [s.dimsOk_eq_decide, s.frameOk_eq_decide]
  rfl

theorem firstFault_up420 : firstFault .up420 s = checkedFault (s.dimsOk .f420) true (s.frameOk .f420) := by
  rw [s.dimsOk_eq_decide, s.frameOk_eq_decide]
  rfl

theorem firstFault_conv (fs fd : PixelFormat) :
    firstFault (.conv (.fmt fs) (.fmt fd)) s =
      checkedFault (s.dimsOk (fam fs) && s.dimsOk (fam fd)) (s.sizeOk fs) true := by
  rw [s.dimsOk_eq_decide, s.dimsOk_eq_decide]
  simp only [firstFault, checkedFault, s.not_sizeOk_iff]
  rfl

end firstFault

/-- Every command ends as its first failing check decides (spec R198). -/
theorem exec_decidedEnd {i : Instr} {s t : State} (h : exec i s = .next t) : DecidedEnd s t (firstFault i s) := by
  cases i with
  | layout fa =>
    cases fa with
    | fmt f =>
      rw [firstFault_layout]
      exact State.runChecked_decidedEnd ((exec_layout f s).symm.trans h) fun hd _ _ => .layout f hd
    | unlisted n => cases h; exact s.raise_eq _
  | dec fa =>
    cases fa with
    | fmt f =>
      rw [firstFault_dec]
      exact State.runChecked_decidedEnd ((exec_dec f s).symm.trans h) fun hd hz _ => .dec f hd hz
    | unlisted n => cases h; exact s.raise_eq _
  | enc fa =>
    cases fa with
    | fmt f =>
      rw [firstFault_enc]
      exact State.runChecked_decidedEnd ((exec_enc f s).symm.trans h) fun hd _ hf => .enc f hd hf
    | unlisted n => cases h; exact s.raise_eq _
  | dn422 =>
    rw [firstFault_dn422]
    exact State.runChecked_decidedEnd ((exec_dn422 s).symm.trans h) fun hd _ hf => .dn422 hd hf
  | up420 =>
    rw [firstFault_up420]
    exact State.runChecked_decidedEnd ((exec_up420 s).symm.trans h) fun hd _ hf => .up420 hd hf
  | conv fa fb =>
    cases fa with
    | unlisted n => cases h; exact s.raise_eq _
    | fmt fs =>
      cases fb with
      | unlisted n => cases h; exact s.raise_eq _
      | fmt fd =>
        rw [firstFault_conv]
        refine State.runChecked_decidedEnd ((exec_conv fs fd s).symm.trans h) fun hd hz _ => ?_
        obtain ⟨hs, hd⟩ := Bool.and_eq_true_iff.1 hd
        exact .conv fs fd hs hd hz

/-- Settles O9: an illegal word is fault entry alone, and a command ends as its first failing check decides. -/
theorem checksDecideInOrder : Obligations.ChecksDecideInOrder := by
  intro w s
  cases hdec : decode w with
  | illegal r => exact ⟨_, runWord_of_illegal hdec s, fun _ _ => rfl, by simp⟩
  | command i =>
    obtain ⟨t, h⟩ := exec_next i s
    have hend := exec_decidedEnd h
    refine ⟨t, (runWord_of_command hdec s).trans h, by simp, fun j hj => ?_⟩
    cases hj
    exact ⟨fun k hk => by rwa [hk] at hend, fun hn => by rwa [hn] at hend⟩

/-! ## What a fault leaves alone -/

/-- Settles O14: a command that ends with a fault it did not find has not completed, and both ways to take one are
fault entry, before the warning is noted or after it. -/
theorem faultsArePrecise : Obligations.FaultsArePrecise := by
  intro w s t k h hnone hk
  cases runWord_end h with
  | fault j =>
    cases hk
    exact ⟨rfl, .inl rfl, id⟩
  | faultWarned j =>
    cases hk
    exact ⟨rfl, .inr (warned_eq_or s).symm, id⟩
  | complete heff =>
    have hsame : some k = none := hk.symm.trans (heff.err_eq.trans hnone)
    exact absurd hsame (Option.some_ne_none k)

/-! ## What clears a fault -/

/-- The fault latch and the phase (spec R24, R32, R38). -/
def State.faultLatch (s : State) : Option FaultKind × Word × Phase := (s.err, s.errinfo, s.phase)

/-- The writes that are carried out in some states and discarded in the others keep the latch (spec R69). -/
theorem State.writeOrDiscard_faultLatch {s u : State} {c : Prop} [Decidable c] (hu : u.faultLatch = s.faultLatch) :
    (if c then u else s.discardWrite).faultLatch = s.faultLatch := by
  split
  · exact hu
  · rfl

/-- With a fault latched, a register write that is no soft reset keeps the latch: a write to CMD does not issue (spec
R203). -/
theorem State.regWrite_faultLatch {s : State} {off : Nat} {v : Word} (he : s.err ≠ none)
    (hctrl : regAt off = some .ctrl → v.getLsbD 31 = false) : (s.regWrite off v).faultLatch = s.faultLatch := by
  unfold State.regWrite
  split
  · next hr => rw [State.writeCtrl, if_neg (Bool.eq_false_iff.1 (hctrl hr))]; rfl
  · rfl
  · rw [State.writeCmd_of_fault he]; rfl
  · exact State.writeOrDiscard_faultLatch rfl
  · exact State.writeOrDiscard_faultLatch rfl
  · exact State.writeOrDiscard_faultLatch rfl
  · rfl

theorem State.replyByte_faultLatch (s : State) (held : Option Byte) (mk : Byte → Reply) :
    (s.replyByte held mk).faultLatch = s.faultLatch := by
  rw [State.replyByte_frame]
  rfl

theorem hostAccess_faultLatch {a : HostAccess} {s t : State} (h : hostAccess a s = .next t) (he : s.err ≠ none)
    (hsoft : ∀ v, a = .write .reg 0x08 4 v → v.getLsbD 31 = false) : t.faultLatch = s.faultLatch := by
  rcases hostAccess_cases h with ⟨off, -, rfl⟩ | ⟨off, v, rfl, hmul, rfl⟩ | ⟨k, -, -, rfl⟩ | ⟨k, v, -, -, rfl⟩ |
    ⟨k, -, -, rfl⟩ | ⟨k, v, -, -, rfl⟩
  · rfl
  · exact State.regWrite_faultLatch he fun hr => hsoft v (by rw [eq_ctrl_offset hmul hr])
  · exact s.replyByte_faultLatch _ _
  · exact State.writeOrDiscard_faultLatch rfl
  · exact s.replyByte_faultLatch _ _
  · rfl

theorem idle_of_latched_fault {s : State} (hs : LatchSound s) (he : s.err ≠ none) : s.phase = .idle := by
  obtain ⟨hbusy, -⟩ := hs
  cases hp : s.phase with
  | idle => rfl
  | busy => exact absurd (hbusy hp).1 he

/-- Every step but a reset keeps the latch of an idle engine that holds a fault (spec R202, R203). -/
theorem step_faultLatch {s t : State} (h : step s = .next t) (hp : s.phase = .idle) (he : s.err ≠ none)
    (hreset : ¬ ResetTurn s) : t.faultLatch = s.faultLatch := by
  rcases step_cases h with ⟨-, hturn⟩ | ⟨a, hturn, hacc⟩ | ⟨hturn, -⟩
  · rw [engineTurn_of_idle (s := { s with turns := s.turns.tail }) hp] at hturn
    cases hturn
    rfl
  · have hsoft : ∀ v, a = .write .reg 0x08 4 v → v.getLsbD 31 = false := fun v ha =>
      Bool.eq_false_iff.2 fun hv => hreset (.inr ⟨v, hv, ha ▸ hturn⟩)
    exact hostAccess_faultLatch (s := { s with turns := s.turns.tail }) hacc he hsoft
  · exact absurd (.inl hturn) hreset

/-- Settles O15: a sound latch with a fault is that of an idle engine, and no step but a reset changes it. -/
theorem onlyResetClearsTheFault : Obligations.OnlyResetClearsTheFault := by
  intro s t k hs hk h hreset
  have he : s.err ≠ none := hk ▸ Option.some_ne_none k
  have hp := idle_of_latched_fault hs he
  have hkeep : (t.err, t.errinfo, t.phase) = (s.err, s.errinfo, s.phase) := step_faultLatch h hp he hreset
  simpa [hk, hp] using hkeep

/-! ## Several engines -/

theorem chipStep_of_step {chip : Chip} {k : Nat} {s t : State} (hk : chip[k]? = some s) (h : step s = .next t) :
    chipStep chip k = .next (chip.set k t) := by
  simp only [chipStep, hk, h]

/-- Everything a step of a chip can do: nothing, or the step of one engine in its place (spec R211). -/
theorem chipStep_cases {chip chip' : Chip} {k : Nat} (h : chipStep chip k = .next chip') :
    chip' = chip ∨ ∃ t, chip' = chip.set k t := by
  unfold chipStep at h
  split at h
  · cases h; exact .inl rfl
  · split at h
    · cases h; exact .inr ⟨_, rfl⟩
    · cases h
    · cases h

theorem chipStep_other {chip chip' : Chip} {k j : Nat} (h : chipStep chip k = .next chip') (hj : j ≠ k) :
    chip'[j]? = chip[j]? := by
  rcases chipStep_cases h with rfl | ⟨t, rfl⟩
  · rfl
  · exact List.getElem?_set_ne hj.symm

/-- An engine of a chip after reset, by its place (spec R211). -/
theorem chipReset_getElem? {caps : List Nat} {k : Nat} {s : State} (h : (chipReset caps)[k]? = some s) :
    ∃ cap, caps[k]? = some cap ∧ s = { State.resetWith cap with inst := k } := by
  rw [chipReset, List.getElem?_mapIdx, Option.map_eq_some_iff] at h
  obtain ⟨cap, hcap, hs⟩ := h
  exact ⟨cap, hcap, hs.symm⟩

/-- Settles O56: a chip's step puts one engine's next state in its place, and each engine of a reset chip is what a reset
makes of itself. -/
theorem instancesShareNothing : Obligations.InstancesShareNothing := by
  refine ⟨fun _ _ _ _ => chipStep_of_step, fun _ _ _ _ => chipStep_other, fun caps =>
    ⟨List.length_mapIdx, fun k s hs => ?_⟩⟩
  obtain ⟨cap, hcap, rfl⟩ := chipReset_getElem? hs
  exact ⟨State.resetEngine_resetValues { State.resetWith cap with inst := k }, hcap, rfl⟩

end Sys2Proof.Machine
end

section
/-! SUPPORT. What puts an engine back to idle: its own turn, however long the host polls before it, and the two resets
(spec 70_reset_and_hazards.md). -/

namespace Sys2Proof.Machine

open Sys2Proof Sys2Proof.Safety

/-! ## The end of a command -/

/-- A latched word never stops the engine, whether it decodes or not (spec R25). -/
theorem runWord_next (w : Word) (s : State) : ∃ t, runWord w s = .next t :=
  (checksDecideInOrder w s).imp fun _ h => h.1

/-- The engine's turn ends the latched command and shows the host nothing (spec R25, R226). -/
theorem runTurns_engine_of_busy {s : State} (h : s.phase = .busy) :
    ∃ t, runTurns s [.engine] = .next t ∧ t.phase = .idle ∧ t.replies = s.replies := by
  obtain ⟨t, hrun⟩ := runWord_next s.cmdl { s with turns := [] }
  have hend := runWord_end hrun
  have hstep : step { s with turns := [.engine] } = .next t :=
    (engineTurn_of_busy (s := { s with turns := [] }) h).trans hrun
  exact ⟨t, run_of_step hstep 0, hend.phase_idle, (congrArg State.replies hend.frame_eq).trans rfl⟩

/-- A register read among the turns adds its reply and nothing else (spec R66). -/
theorem runTurns_regRead (s : State) (ts : List Turn) {off : Nat} (h : off % 4 = 0) :
    runTurns s (.host (.read .reg off 4) :: ts) = runTurns (s.reply (.reg off (s.regRead off))) ts :=
  run_of_step (step_regRead s ts h) ts.length

/-- The state after `n` polls of STATUS: each one's reply is STATUS as it stands. -/
def State.polled (s : State) (n : Nat) : State :=
  { s with replies := List.replicate n (.reg 0x04 (s.regRead 0x04)) ++ s.replies }

/-- One poll and `n` more are `n + 1`: a reply is no part of what STATUS shows. -/
theorem State.polled_reply (s : State) (n : Nat) :
    (s.reply (.reg 0x04 (s.regRead 0x04))).polled n = s.polled (n + 1) := by
  simp only [State.polled, List.replicate_succ', List.append_assoc]
  rfl

theorem runTurns_polls (s : State) (n : Nat) (ts : List Turn) :
    runTurns s (List.replicate n (.host (.read .reg 0x04 4)) ++ ts) = runTurns (s.polled n) ts := by
  induction n generalizing s with
  | zero => rfl
  | succ n ih =>
    rw [List.replicate_succ, List.cons_append, runTurns_regRead s _ rfl, ih, s.polled_reply]

/-- BUSY as the host reads it (spec R32). -/
theorem State.regRead_status_busy {s : State} (h : s.phase = .busy) : (s.regRead 0x04).getLsbD 0 = true := by
  obtain ⟨hbusy, -⟩ := statusReadsAndClears s [] 0#32
  exact hbusy.2 h

/-- Settles O55: the polls only add their replies, and the engine's turn ends what is still latched. -/
theorem latchedCommandEnds : Obligations.LatchedCommandEnds := by
  intro s n hbusy
  obtain ⟨t, hrun, hidle, hreplies⟩ := runTurns_engine_of_busy (s := s.polled n) hbusy
  exact ⟨t, (runTurns_polls s n _).trans hrun, hidle, hreplies, State.regRead_status_busy hbusy⟩

/-! ## The two resets -/

theorem step_hardReset (s : State) (rest : List Turn) :
    step { s with turns := .hardReset :: rest } = .next { s with turns := rest }.resetEngine := rfl

/-- The write to CTRL with bit 31 set (spec R33, R220). -/
theorem step_softReset (s : State) (rest : List Turn) {v : Word} (hv : v.getLsbD 31 = true) :
    step { s with turns := .host (.write .reg 0x08 4 v) :: rest } = .next { s with turns := rest }.resetEngine :=
  step_regWrite rfl (if_pos hv)

/-- Settles O48: both resets are the one operation `resetEngine`, which asks nothing of the phase. -/
theorem softResetEqualsHardReset : Obligations.SoftResetEqualsHardReset := fun s rest _ hv =>
  ⟨(step_softReset s rest hv).trans (step_hardReset s rest).symm, _, step_hardReset s rest,
    State.resetEngine_resetValues _, rfl, rfl⟩

end Sys2Proof.Machine
end
